-- ==== Sys2Proof/Word.lean ====
section
/-! DEFINITION. The widths the spec names (00_scope.md R7, R9): bytes, command words, colours and the 16-bit geometry. -/

namespace Sys2Proof

/-- One byte of a payload or of the staging buffer (20_memory.md R60). -/
abbrev Byte := BitVec 8

/-- A command word, and the result register RES (30_encoding.md R80, 10_state.md R48). -/
abbrev Word := BitVec 32

/-- A palette entry (10_state.md R34). -/
abbrev Colour := BitVec 24

/-- A logical button id; 0 is "unbound" (10_state.md R25). -/
abbrev ButtonId := BitVec 8

/-- A panel dimension or offset in pixels (10_state.md R36, R38). -/
abbrev Dim := BitVec 16

/-- A display identity code (10_state.md R41). -/
abbrev IdCode := BitVec 17

end Sys2Proof
end

