-- ==== Sys2Proof/Config.lean ====
section
/-! DEFINITION. What an implementation fixes (00_scope.md R8) as plain data, and the free values, which are opaque constants. -/

namespace Sys2Proof

/-- `INV_MODE`: how MUX_SETINV writes the mask (00_scope.md R8, 90_conflicts.md C1). -/
inductive InvMode where
  | set
  | toggle
  deriving DecidableEq, Repr, Inhabited

/-- From when on MUX_QUERY sees a binding that MUX_BIND wrote: at once (40_scanner.md R119), or from the next MUX_TICK on
(40_scanner.md R115, 70_reset_and_hazards.md R217). The spec's rules differ and no ruling names the point: the model's own
parameter (log 17). -/
inductive BindRule where
  | atOnce
  | atTick
  deriving DecidableEq, Repr, Inhabited

/-- `Cfg`: the configuration record chosen at bring-up, with R8's law that both sides are at least 1. -/
structure Cfg where
  width      : Dim := 1
  height     : Dim := 1
  doubleSize : Bool := false
  offX       : Dim := 0
  offY       : Dim := 0
  palXOR     : Colour := 0
  modeByte   : Byte := 0
  timingWord : BitVec 32 := 0
  spiFreq    : Nat := 0
  spiMode    : Nat := 0
  width_pos  : 0 < width.toNat := by decide
  height_pos : 0 < height.toNat := by decide
  deriving DecidableEq, Repr, Inhabited

/-- One step of `IMG_BYTES`: an image at least `w` wide and `h` high has at least `bytes` bytes. -/
structure ImgStep where
  w     : Nat
  h     : Nat
  bytes : Nat
  deriving DecidableEq, Repr

/-- The parameters of 00_scope.md R8 as plain data (log 1), and the model's own `bindRule` (log 17).
`CONFIG` is a list of identity codes with their records and a record for every other code. -/
structure Params where
  cfgs        : List (IdCode × Cfg) := []
  otherCfg    : Cfg := {}
  imgSteps    : List ImgStep := []
  invMode     : InvMode := .set
  bindRule    : BindRule := .atOnce
  spiInitByte : Byte := 0
  deriving DecidableEq, Repr, Inhabited

/-- `CONFIG(code)` (00_scope.md R8). -/
def Params.config (p : Params) (code : IdCode) : Cfg :=
  (p.cfgs.lookup code).getD p.otherCfg

/-- What one step of the table says of a w × h image; a step with a zero side says nothing. -/
def ImgStep.at (t : ImgStep) (w h : Nat) : Nat :=
  if 0 < t.w ∧ t.w ≤ w ∧ 0 < t.h ∧ t.h ≤ h then t.bytes else 0

/-- The largest value the steps of a table give a w × h image. -/
def imgBytesOf : List ImgStep → Nat → Nat → Nat
  | [], _, _ => 0
  | t :: rest, w, h => max (t.at w h) (imgBytesOf rest w h)

/-- `IMG_BYTES(w, h)` (00_scope.md R8): monotone in each argument and 0 on a zero side, for every table (Laws/Config.lean). -/
def Params.imgBytes (p : Params) (w h : Nat) : Nat := imgBytesOf p.imgSteps w h

/-- The agents of 00_scope.md R12 that have turns of their own; MUX runs in the presenting agent's turn and ENV answers draws. -/
inductive Agent where
  | host
  | tick
  | dsp
  | xfer
  deriving DecidableEq, Repr, Inhabited

/-- FREE: the parameters of the block at reset (log 1). -/
opaque Config.params : Params

/-- FREE: the level the data line gives at a sample no list fixes (30_encoding.md R94, log 5). -/
opaque Config.freeLevel : Nat → Bool

/-- FREE: the agent that takes a turn no list fixes (00_scope.md R12, log 2). -/
opaque Config.freeAgent : Nat → Agent

/-- FREE: a palette entry after construction (70_reset_and_hazards.md R212, log 9). -/
opaque Config.freeColour : Nat → Colour

end Sys2Proof
end

