-- ==== Sys2Proof/Syntax.lean ====
section
/-! DEFINITION. Payloads and the twelve commands, one constructor per row of the opcode map (30_encoding.md R85). -/

namespace Sys2Proof

/-- An image payload (20_memory.md R64). -/
structure Image where
  bpp  : Nat
  w    : Dim
  h    : Dim
  data : List Byte
  deriving DecidableEq, Repr

/-- What travels beside a command word (30_encoding.md R80). -/
inductive Payload where
  | none
  | palette (bytes : List Byte)
  | image (img : Image)
  deriving DecidableEq, Repr

/-- A pair (W, P) presented to the block (30_encoding.md R80). -/
structure Command where
  word    : Word
  payload : Payload
  deriving DecidableEq, Repr

/-- The commands with their operands assembled (30_encoding.md R83): SLOT in 0..7, ID in 0..255, N a bit count, H in rows,
and an image exactly when the flag I is 1. -/
inductive Instr where
  | muxInit
  | muxBind (slot : Fin 8) (id : ButtonId)
  | muxSetinv (slot : Fin 8)
  | muxTick
  | muxQuery (id : ButtonId)
  | muxReadbits (n : Nat)
  | muxDisable
  | dispInit
  | dispSetpal (pal : List Byte)
  | dispCfgstatus (h : Dim)
  | dispSubmitstatus (img : Option Image)
  | dispSubmitframe (img : Option Image)
  deriving DecidableEq, Repr

end Sys2Proof
end

