-- ==== Sys2Proof/WellFormed.lean ====
section
/-! DEFINITION. Which instructions the encoding admits: N ≤ 32 (30_encoding.md R83) and well-formed images (R84). -/

namespace Sys2Proof

/-- An image is well formed iff its data is never read (bpp ≠ 4) or has `IMG_BYTES(w, h)` bytes (20_memory.md R64). -/
def Image.wf (p : Params) (img : Image) : Bool :=
  !(img.bpp == 4) || img.data.length == p.imgBytes img.w.toNat img.h.toNat

/-- The checks of the encoding: READBITS takes N ≤ 32, and an image payload is well formed. -/
def Instr.wf (p : Params) : Instr → Bool
  | .muxInit => true
  | .muxBind _ _ => true
  | .muxSetinv _ => true
  | .muxTick => true
  | .muxQuery _ => true
  | .muxReadbits n => decide (n ≤ 32)
  | .muxDisable => true
  | .dispInit => true
  | .dispSetpal _ => true
  | .dispCfgstatus _ => true
  | .dispSubmitstatus .none => true
  | .dispSubmitstatus (.some img) => img.wf p
  | .dispSubmitframe .none => true
  | .dispSubmitframe (.some img) => img.wf p

end Sys2Proof
end

