-- ==== Sys2Proof/Decode.lean ====
section
/-! DEFINITION. Decoding of a presented pair (W, P), total, rejecting by name (30_encoding.md R80–R92), and the encoder. -/

namespace Sys2Proof

/-- `W[hi:lo]` as a natural (00_scope.md R9). -/
def field (w : Word) (hi lo : Nat) : Nat := w.toNat / 2 ^ lo % 2 ^ (hi + 1 - lo)

/-- Why a pair spells nothing (30_encoding.md R92). -/
inductive Illegal where
  /-- The opcode is one of 0x00, 0x08–0x0F, 0x15–0xFF (R88). -/
  | reservedOpcode
  /-- A bit the format does not assign is 1 (R81). -/
  | reservedBit
  /-- READBITS with N in 33..63 (R83). -/
  | countTooLarge
  /-- The payload is not of the kind the word asks for (R84). -/
  | payloadKind
  /-- An image payload that is not well formed (20_memory.md R64). -/
  | imageIllFormed
  deriving DecidableEq, Repr

/-- The opcode of a command (30_encoding.md R85). -/
def Instr.opcode : Instr → Nat
  | .muxInit => 0x01
  | .muxBind _ _ => 0x02
  | .muxSetinv _ => 0x03
  | .muxTick => 0x04
  | .muxQuery _ => 0x05
  | .muxReadbits _ => 0x06
  | .muxDisable => 0x07
  | .dispInit => 0x10
  | .dispSetpal _ => 0x11
  | .dispCfgstatus _ => 0x12
  | .dispSubmitstatus _ => 0x13
  | .dispSubmitframe _ => 0x14

/-- A word with no reserved bit set, whose command comes without a payload. -/
def decodeBare (reserved : Nat) (pl : Payload) (i : Instr) : Except Illegal Instr :=
  if reserved ≠ 0 then .error .reservedBit
  else match pl with
    | .none => .ok i
    | .palette _ => .error .payloadKind
    | .image _ => .error .payloadKind

/-- Format I: the flag says whether a well-formed image accompanies the word (30_encoding.md R84). -/
def decodeImage (p : Params) (w : Word) (pl : Payload) (mk : Option Image → Instr) : Except Illegal Instr :=
  if field w 23 1 ≠ 0 then .error .reservedBit
  else if field w 0 0 = 0 then
    match pl with
    | .none => .ok (mk Option.none)
    | .palette _ => .error .payloadKind
    | .image _ => .error .payloadKind
  else
    match pl with
    | .image img => if img.wf p then .ok (mk (some img)) else .error .imageIllFormed
    | .none => .error .payloadKind
    | .palette _ => .error .payloadKind

/-- Format N with a palette payload of any length (30_encoding.md R84). -/
def decodePalette (w : Word) (pl : Payload) : Except Illegal Instr :=
  if field w 23 0 ≠ 0 then .error .reservedBit
  else match pl with
    | .palette bytes => .ok (.dispSetpal bytes)
    | .none => .error .payloadKind
    | .image _ => .error .payloadKind

/-- Format R: N is W[5:0], and only N ≤ 32 is valid (30_encoding.md R82, R83). -/
def decodeCount (w : Word) (pl : Payload) : Except Illegal Instr :=
  if field w 23 6 ≠ 0 then .error .reservedBit
  else if 32 < field w 5 0 then .error .countTooLarge
  else decodeBare 0 pl (.muxReadbits (field w 5 0))

/-- `SLOT = W[10:8]` (30_encoding.md R82). -/
def slotField (w : Word) : Fin 8 := ⟨field w 10 8, Nat.mod_lt _ (by decide)⟩

/-- `decode(W, P)` (30_encoding.md R91, R92) over the formats of R82 and the opcode map of R85. -/
def decode (p : Params) (w : Word) (pl : Payload) : Except Illegal Instr :=
  match field w 31 24 with
  | 0x01 => decodeBare (field w 23 0) pl .muxInit
  | 0x02 => decodeBare (field w 23 11) pl (.muxBind (slotField w) (BitVec.ofNat 8 (field w 7 0)))
  | 0x03 => decodeBare (field w 23 11 + field w 7 0) pl (.muxSetinv (slotField w))
  | 0x04 => decodeBare (field w 23 0) pl .muxTick
  | 0x05 => decodeBare (field w 23 8) pl (.muxQuery (BitVec.ofNat 8 (field w 7 0)))
  | 0x06 => decodeCount w pl
  | 0x07 => decodeBare (field w 23 0) pl .muxDisable
  | 0x10 => decodeBare (field w 23 0) pl .dispInit
  | 0x11 => decodePalette w pl
  | 0x12 => decodeBare (field w 23 16) pl (.dispCfgstatus (BitVec.ofNat 16 (field w 15 0)))
  | 0x13 => decodeImage p w pl .dispSubmitstatus
  | 0x14 => decodeImage p w pl .dispSubmitframe
  | _ => .error .reservedOpcode

/-- The flag I of an image operand. -/
def imageFlag : Option Image → Nat
  | .none => 0
  | .some _ => 1

/-- W[23:0] of a command, from the formats of 30_encoding.md R82. -/
def Instr.operandBits : Instr → Nat
  | .muxInit => 0
  | .muxBind slot id => slot.val * 2 ^ 8 + id.toNat
  | .muxSetinv slot => slot.val * 2 ^ 8
  | .muxTick => 0
  | .muxQuery id => id.toNat
  | .muxReadbits n => n % 2 ^ 6
  | .muxDisable => 0
  | .dispInit => 0
  | .dispSetpal _ => 0
  | .dispCfgstatus h => h.toNat
  | .dispSubmitstatus img => imageFlag img
  | .dispSubmitframe img => imageFlag img

/-- An image operand as a payload (30_encoding.md R84). -/
def imagePayload : Option Image → Payload
  | .none => .none
  | .some img => .image img

/-- The payload that accompanies a command (30_encoding.md R84). -/
def Instr.payload : Instr → Payload
  | .muxInit => .none
  | .muxBind _ _ => .none
  | .muxSetinv _ => .none
  | .muxTick => .none
  | .muxQuery _ => .none
  | .muxReadbits _ => .none
  | .muxDisable => .none
  | .dispInit => .none
  | .dispSetpal pal => .palette pal
  | .dispCfgstatus _ => .none
  | .dispSubmitstatus img => imagePayload img
  | .dispSubmitframe img => imagePayload img

/-- The pair (W, P) that spells a command: OPC in W[31:24], the operand fields below it (30_encoding.md R81, R82). -/
def encode (i : Instr) : Command :=
  ⟨BitVec.ofNat 32 (i.opcode * 2 ^ 24 + i.operandBits), i.payload⟩

/-- The payload the model puts beside a word that comes with none: sixteen black triples where the word asks for a palette,
an image of zeros where it asks for an image, else NONE (log 4). -/
def plainPayload (w : Word) : Payload :=
  match field w 31 24 with
  | 0x11 => .palette (List.replicate 48 0)
  | 0x13 => if field w 0 0 = 0 then .none else .image ⟨0, 0, 0, []⟩
  | 0x14 => if field w 0 0 = 0 then .none else .image ⟨0, 0, 0, []⟩
  | _ => .none

/-- The word whose low `nbits` bits are those of w and whose other bits are 0. -/
def tableWord (nbits w : Nat) : Word := BitVec.ofNat 32 (w % 2 ^ nbits)

/-- The instruction the decoder reads from a row's word, with the plain payload beside it; no word is longer than 32 bits (R80). -/
def decodeTableWord (nbits w : Nat) : Option Instr :=
  if 32 < nbits then Option.none
  else match decode Config.params (tableWord nbits w) (plainPayload (tableWord nbits w)) with
    | .ok i => some i
    | .error _ => Option.none

end Sys2Proof
end

