-- ==== Sys2Proof/Machine/State.lean ====
section
/-! DEFINITION. The state of the block, element by element (10_state.md R20), the reasons a step stops, and the state after reset. -/

namespace Sys2Proof.Machine

/-- The five pins (30_encoding.md R94). -/
inductive Pin where
  | latch
  | clk
  | data
  | rst
  | bl
  deriving DecidableEq, Repr

/-- A pin's mode (10_state.md R26). -/
inductive PinMode where
  | unconfigured
  | out (level : Bool)
  | inPd
  | neutral
  deriving DecidableEq, Repr

/-- The modes of the pins, S12–S14 and S34–S35 (10_state.md R26, R45). -/
structure Pins where
  latch : PinMode
  clk   : PinMode
  data  : PinMode
  rst   : PinMode
  bl    : PinMode
  deriving DecidableEq, Repr

/-- The scanner, S0–S11 (10_state.md R21–R25), and one field of the MODEL's own: `tickId`, the bindings as they were at the last
MUX_TICK, which only MUX_QUERY reads, and which settle an answer only under `BindRule.atTick` (log 17). -/
structure Mux where
  constructed : Bool
  enabled     : Bool
  state       : BitVec 8
  invMask     : BitVec 8
  id          : Vector ButtonId 8
  tickId      : Vector ButtonId 8
  deriving DecidableEq, Repr

/-- The sequencer's control state (10_state.md R31). -/
inductive Phase where
  | idle
  | boot
  | sfW1
  | sfW2
  | sfW3
  deriving DecidableEq, Repr

/-- The staging buffer: `size` bytes at offsets 0 .. size−1 (20_memory.md R60), of which `cells` lists those that were written,
offsets rising; a byte nothing has written has no value (log 10). -/
structure Memory where
  size  : Nat
  cells : List Host.Cell
  deriving DecidableEq, Repr

/-- The canonical form: offsets strictly rising and inside the buffer. -/
abbrev Memory.wf (m : Memory) : Prop :=
  m.cells.Pairwise (fun a b => a.1 < b.1) ∧ ∀ c ∈ m.cells, c.1 < m.size

/-- The colour LUT (10_state.md R34). -/
abbrev Palette := Vector Colour 16

/-- The display sequencer, S16–S33 (10_state.md R30–R44). -/
structure Dsp where
  constructed   : Bool
  phase         : Phase
  inUpdate      : Bool
  newPalette    : Bool
  currPalette   : Palette
  palXOR        : Colour
  width         : Dim
  height        : Dim
  displayHeight : Dim
  offX          : Dim
  offY          : Dim
  doubleSize    : Bool
  modeByte      : Byte
  timingWord    : BitVec 32
  dispId        : IdCode
  screenBuf     : Memory
  lastStatus    : Option Image
  cur           : Option Image
  deriving DecidableEq, Repr

/-- An image send handed to the panel driver (30_encoding.md R95 `SEND`). -/
structure SendRec where
  w     : Dim
  h     : Dim
  bytes : List Byte
  pal   : Option Palette
  deriving DecidableEq, Repr

/-- The transfer engine, S40–S41 (10_state.md R46); `record` is `XFER.rec`. -/
structure Xfer where
  busy   : Bool
  record : Option SendRec
  deriving DecidableEq, Repr

/-- The fault codes (60_exceptions.md R182). -/
inductive FaultCode where
  | displayNotFound
  | paletteSize
  | frameBpp
  | frameDim
  | statusBpp
  | statusDim
  | readDisabled
  | cfgInFlight
  | barTooTall
  | dspBusy
  deriving DecidableEq, Repr

/-- The info recorded with a fault code (60_exceptions.md R182). -/
inductive FaultInfo where
  | none
  | value (n : Nat)
  | dims (w h : Dim)
  | flight (inUpdate busy : Bool)
  deriving DecidableEq, Repr

/-- The event kinds EVT_KEY_DOWN and EVT_KEY_UP, two distinct names (30_encoding.md R96, log 7). -/
inductive EventKind where
  | keyDown
  | keyUp
  deriving DecidableEq, Repr

/-- An event handed to the event sink (10_state.md R49). -/
structure Event where
  kind    : EventKind
  subject : ButtonId
  deriving DecidableEq, Repr

/-- A pin record of PTRACE (30_encoding.md R94). -/
inductive PinRec where
  | pin (p : Pin) (m : PinMode)
  | sample (p : Pin) (level : Bool)
  deriving DecidableEq, Repr

/-- An address window in exact naturals (41_display.md R150). -/
structure Window where
  x : Nat
  y : Nat
  w : Nat
  h : Nat
  deriving DecidableEq, Repr

/-- A panel or SPI record of QTRACE (30_encoding.md R95). -/
inductive PanelRec where
  | spiCreate
  | panelCreate
  | spiSetup (freq mode : Nat)
  | spiWrite (b : Byte)
  | panelInit
  | panelConfigure (modeByte : Byte) (timingWord : BitVec 32)
  | setWindow (win : Window)
  | send (r : SendRec)
  | done
  deriving DecidableEq, Repr

/-- The MODEL's own fields, not the block's: the parameters (00_scope.md R8), the commands the host has yet to present (R80),
the agents of the next turns (R12), the levels of the next samples (R94), and how many free values have been drawn. -/
structure Env where
  params    : Params
  cmds      : List Command
  sched     : List Agent
  samples   : List Bool
  freeCount : Nat
  deriving DecidableEq, Repr

/-- Everything the spec gives the block (10_state.md R20), and the model's own `env` and `mux.tickId`. -/
structure State where
  mux     : Mux
  pins    : Pins
  dsp     : Dsp
  xfer    : Xfer
  fault   : Option (FaultCode × FaultInfo)
  refused : Bool
  res     : Word
  evq     : List Event
  ptrace  : List PinRec
  qtrace  : List PanelRec
  env     : Env
  deriving DecidableEq, Repr

/-- Why the machine stops. A fault of the block itself (60_exceptions.md R182) is no stop: it is a next state with FAULT set. -/
inductive Fault where
  /-- Raised by every command and every agent's turn once FAULT is set: no agent has a step (00_scope.md R14). The spec's own
  stop, so safe. -/
  | halted
  /-- Raised by steps SF_W1 and SF_W2 on an access outside the staging buffer, or a copy whose length is not the image's
  (20_memory.md R61: "a model may treat it as unreachable, or as a model fault"). No run reaches it: safe. -/
  | bufferRange
  /-- Raised by steps SF_W1 and SF_W2 when MemRead meets a byte that nothing has written (log 10). No run reaches it: safe. -/
  | bufferUnwritten
  /-- Raised by step SF_W1 with no latched frame, and by SF_W2 with no pending status image, to which the spec gives no meaning
  (log 11). No run reaches it: safe. -/
  | latchEmpty
  deriving DecidableEq, Repr

/-- Why a step is refused. A pair that spells nothing is no refusal in this sense: it sets REFUSED (30_encoding.md R92). -/
inductive Refusal where
  /-- Raised by exec's arms alone, for an instruction that has no meaning yet: safe. No arm raises it. -/
  | notModelled (mnemonic : String)
  deriving DecidableEq, Repr

/-- What a step answers. -/
abbrev Answer := Host.Outcome State Fault Refusal

/-- Right after reset: every element at the reset value of 10_state.md R20; currPalette, which R20 leaves UNSPECIFIED, at 0
(log 8); and an environment that fixes nothing (logs 1, 2, 4, 5, 6). -/
def State.reset : State where
  mux :=
    { constructed := false, enabled := false, state := 0, invMask := 0
      id := Vector.replicate 8 0, tickId := Vector.replicate 8 0 }
  pins := { latch := .unconfigured, clk := .unconfigured, data := .unconfigured, rst := .unconfigured, bl := .unconfigured }
  dsp :=
    { constructed := false, phase := .idle, inUpdate := false, newPalette := false
      currPalette := Vector.replicate 16 0, palXOR := 0, width := 0, height := 0, displayHeight := 0
      offX := 0, offY := 0, doubleSize := false, modeByte := 0, timingWord := 0, dispId := 0
      screenBuf := { size := 0, cells := [] }, lastStatus := none, cur := none }
  xfer := { busy := false, record := none }
  fault := none
  refused := false
  res := 0
  evq := []
  ptrace := []
  qtrace := []
  env := { params := Config.params, cmds := [], sched := [], samples := [], freeCount := 0 }

end Sys2Proof.Machine
end

