-- ==== Sys2Proof/Machine/Operands.lean ====
section
/-! DEFINITION. Values the commands compute from their operands and the geometry: windows, acceptance predicates, colours. -/

namespace Sys2Proof.Machine

/-- `MainWindow()` (41_display.md R150). -/
def Dsp.mainWindow (d : Dsp) : Window :=
  ⟨d.offX.toNat, d.offY.toNat, d.width.toNat, d.displayHeight.toNat⟩

/-- `StatusWindow()` (41_display.md R150). -/
def Dsp.statusWindow (d : Dsp) : Window :=
  ⟨d.offX.toNat, d.offY.toNat + d.displayHeight.toNat, d.width.toNat, d.height.toNat - d.displayHeight.toNat⟩

/-- `m`, the double-size factor (41_display.md R151). -/
def Dsp.scale (d : Dsp) : Nat := if d.doubleSize then 2 else 1

/-- The dimension check of `FrameOK` in exact naturals (41_display.md R151). -/
def Dsp.frameDims (d : Dsp) (img : Image) : Bool :=
  img.w.toNat * d.scale == d.width.toNat && img.h.toNat * d.scale == d.displayHeight.toNat

/-- The dimension check of `StatusOK` (41_display.md R151). -/
def Dsp.statusDims (d : Dsp) (img : Image) : Bool :=
  img.w.toNat == d.width.toNat && img.h.toNat == d.height.toNat - d.displayHeight.toNat

/-- An image with no pixel (41_display.md R147, D31). -/
def emptyImage (img : Image) : Bool := img.w.toNat * img.h.toNat == 0

/-- `pack(r, g, b) = (r << 16) | (g << 8) | b` (41_display.md R144). -/
def pack (r g b : Byte) : Colour :=
  (r.setWidth 24 <<< 16) ||| (g.setWidth 24 <<< 8) ||| b.setWidth 24

/-- Entry k of a palette payload: red, green and blue from bytes 3k, 3k+1, 3k+2 (20_memory.md R65). -/
def paletteEntry (bytes : List Byte) (k : Nat) : Colour :=
  pack (bytes.getD (3 * k) 0) (bytes.getD (3 * k + 1) 0) (bytes.getD (3 * k + 2) 0)

/-- The sixteen entries DISP_SETPAL writes (41_display.md R145). -/
def loadPalette (bytes : List Byte) (palXOR : Colour) : Palette :=
  Vector.ofFn fun k : Fin 16 => paletteEntry bytes k.val ^^^ palXOR

/-- `BUF_BYTES = IMG_BYTES(Cfg.width, Cfg.height)` (00_scope.md R8). -/
def bufBytes (p : Params) (c : Cfg) : Nat := p.imgBytes c.width.toNat c.height.toNat

/-- The number of a fault code (60_exceptions.md R182). -/
def FaultCode.number : FaultCode → Nat
  | .displayNotFound => 0x01
  | .paletteSize => 0x02
  | .frameBpp => 0x03
  | .frameDim => 0x04
  | .statusBpp => 0x05
  | .statusDim => 0x06
  | .readDisabled => 0x81
  | .cfgInFlight => 0x82
  | .barTooTall => 0x83
  | .dspBusy => 0x84

/-- The all-ones 17-bit "disconnected" sentinel (00_scope.md R7). -/
def disconnected : IdCode := 0x1FFFF

end Sys2Proof.Machine
end

