-- ==== Sys2Proof/Machine/Flags.lean ====
section
/-! DEFINITION. The block's status bits in combination (10_state.md R52), its one-bit-per-input edge machine, and the query of
a stored level. The block has no condition codes. -/

namespace Sys2Proof.Machine

/-- `InFlight()` (41_display.md R149). -/
def State.inFlight (s : State) : Bool := s.dsp.inUpdate || s.xfer.busy

/-- The phases of a DISP_SUBMITFRAME sequence (10_state.md R32). -/
def Phase.submitting : Phase → Bool
  | .idle => false
  | .boot => false
  | .sfW1 => true
  | .sfW2 => true
  | .sfW3 => true

/-- The edge-detection machine of one input: two events on a change of a bound bit, none otherwise (40_scanner.md R122). -/
def edgeEvents (id : ButtonId) (stored sample : Bool) : List Event :=
  if stored = sample ∨ id = 0 then []
  else
    let kind := if sample then EventKind.keyDown else EventKind.keyUp
    [⟨kind, id⟩, ⟨kind, 0⟩]

/-- One tick's events: the inputs' events in increasing index (40_scanner.md R118, R122). -/
def tickEvents (ids : Vector ButtonId 8) (stored sample : BitVec 8) : List Event :=
  (List.finRange 8).flatMap fun i => edgeEvents ids[i] (stored.getLsbD i.val) (sample.getLsbD i.val)

/-- The first bit bound to an id, by increasing index (40_scanner.md R119). -/
def firstBound (ids : Vector ButtonId 8) (id : ButtonId) : Option (Fin 8) :=
  (List.finRange 8).find? fun i => ids[i] == id

/-- The stored level of the first bit that a table binds to an id; id 0 is never bound (40_scanner.md R119). -/
def Mux.levelOf (m : Mux) (ids : Vector ButtonId 8) (id : ButtonId) : Bool :=
  if id = 0 then false
  else match firstBound ids id with
    | some i => m.state.getLsbD i.val
    | none => false

/-- The bindings that MUX_QUERY scans: those that stand (40_scanner.md R119), or those of the last MUX_TICK
(70_reset_and_hazards.md R217). The parameter is the model's choice (log 17). -/
def Mux.queryIds (m : Mux) (rule : BindRule) : Vector ButtonId 8 :=
  match rule with
  | .atOnce => m.id
  | .atTick => m.tickId

/-- Whether a logical button reads as pressed: the level by the bindings MUX_QUERY scans. The parameter is consulted only
where its values would differ (`Mux.pressed_eq` in Laws/Ops.lean), so that no other query waits on it. -/
def Mux.pressed (m : Mux) (rule : BindRule) (id : ButtonId) : Bool :=
  if m.levelOf m.id id = m.levelOf m.tickId id then m.levelOf m.id id else m.levelOf (m.queryIds rule) id

/-- The mask MUX_SETINV writes (40_scanner.md R116). -/
def invertedMask (mode : InvMode) (mask : BitVec 8) (slot : Fin 8) : BitVec 8 :=
  match mode with
  | .set => mask ||| 1#8 <<< slot.val
  | .toggle => mask ^^^ 1#8 <<< slot.val

end Sys2Proof.Machine
end

