-- ==== Sys2Proof/Machine/Ops.lean ====
section
/-! DEFINITION. The primitives of 00_scope.md R11 over the state: halting and raising, pins, draws, the shift-in, the staging
buffer, events, panel records, and the turn of an agent. -/

namespace Sys2Proof.Machine

/-- The effect of a command or an agent's step: none once FAULT is set (00_scope.md R14, 60_exceptions.md R180). -/
def whenRunning (s : State) (k : State → Answer) : Answer :=
  match s.fault with
  | none => k s
  | some _ => .fault .halted

/-- `raise Fatal(code, info)` and `raise ModelFault(code, info)`: the writes made so far stay, and FAULT ← (code, info)
(60_exceptions.md R180, R181). -/
def State.raise (s : State) (code : FaultCode) (info : FaultInfo) : State :=
  { s with fault := some (code, info) }

/-- A reset of the whole block in a given environment: every element at its reset value (70_reset_and_hazards.md R210). It is
the only thing that leaves HALTED, it comes from outside, and no step takes it. -/
def State.powerOn (env : Env) : State := { State.reset with env := env }

/-- The mode of a pin. -/
def Pins.mode (pins : Pins) : Pin → PinMode
  | .latch => pins.latch
  | .clk => pins.clk
  | .data => pins.data
  | .rst => pins.rst
  | .bl => pins.bl

/-- The pins with one mode replaced. -/
def Pins.withMode (pins : Pins) (p : Pin) (m : PinMode) : Pins :=
  match p with
  | .latch => { pins with latch := m }
  | .clk => { pins with clk := m }
  | .data => { pins with data := m }
  | .rst => { pins with rst := m }
  | .bl => { pins with bl := m }

/-- Set a pin's mode and append its record to PTRACE (30_encoding.md R94). -/
def State.drivePin (s : State) (p : Pin) (m : PinMode) : State :=
  { s with pins := s.pins.withMode p m, ptrace := s.ptrace ++ [.pin p m] }

/-- `PinWrite(p, b)` (30_encoding.md R94). -/
def State.pinWrite (s : State) (p : Pin) (b : Bool) : State := s.drivePin p (.out b)

/-- `PinInput(p, PULLDOWN)` (30_encoding.md R94). -/
def State.pinInput (s : State) (p : Pin) : State := s.drivePin p .inPd

/-- `PinRelease(p)` (30_encoding.md R94). -/
def State.pinRelease (s : State) (p : Pin) : State := s.drivePin p .neutral

/-- `Pulse(p)` is `PinWrite(p, 0); PinWrite(p, 1)` (30_encoding.md R94). -/
def State.pulse (s : State) (p : Pin) : State := (s.pinWrite p false).pinWrite p true

/-- The level ENV gives at the next sample: any bit, with no law (30_encoding.md R94, log 5). -/
def Env.level (e : Env) : Bool :=
  match e.samples with
  | b :: _ => b
  | [] => Config.freeLevel e.freeCount

/-- The environment once that level has been drawn. -/
def Env.afterLevel (e : Env) : Env :=
  match e.samples with
  | _ :: rest => { e with samples := rest }
  | [] => { e with freeCount := e.freeCount + 1 }

/-- The levels of the next n samples, the first one first. -/
def Env.levels (e : Env) : Nat → List Bool
  | 0 => []
  | n + 1 => e.level :: e.afterLevel.levels n

/-- The environment once n levels have been drawn. -/
def Env.afterLevels (e : Env) : Nat → Env
  | 0 => e
  | n + 1 => e.afterLevel.afterLevels n

/-- `PinRead(p)`: draw a level and record the sample (30_encoding.md R94). -/
def State.pinRead (s : State) (p : Pin) : Bool × State :=
  (s.env.level, { s with ptrace := s.ptrace ++ [.sample p s.env.level], env := s.env.afterLevel })

/-- The accumulator with one more bit: `((acc << 1) | d) mod 2^32` (00_scope.md R15). -/
def shiftBit (acc : Word) (d : Bool) : Word := acc <<< 1 ||| (BitVec.ofBool d).setWidth 32

/-- The loop of ReadBits (40_scanner.md R111): read the data line, shift the bit in, pulse the clock. -/
def shiftLoop : Nat → Word → State → Word × State
  | 0, acc, s => (acc, s)
  | n + 1, acc, s => shiftLoop n (shiftBit acc (s.pinRead .data).1) ((s.pinRead .data).2.pulse .clk)

/-- `ReadBits(n)` (40_scanner.md R111): the value read and the state after it, or the state in which MF_READ_DISABLED was
raised. -/
def State.readBits (s : State) (n : Nat) : Except State (Word × State) :=
  if s.mux.enabled then .ok (shiftLoop n 0 (s.pulse .latch))
  else .error (s.raise .readDisabled .none)

/-- `Emit` for each event, in order (30_encoding.md R96). -/
def State.emit (s : State) (es : List Event) : State := { s with evq := s.evq ++ es }

/-- `Panel(cmd)`: append a record to QTRACE (30_encoding.md R95). -/
def State.panel (s : State) (r : PanelRec) : State := { s with qtrace := s.qtrace ++ [r] }

/-- The byte at an offset of the staging buffer, if one has been written there. -/
def Memory.readByte (m : Memory) (a : Nat) : Option Byte := m.cells.lookup a

/-- The cells with one byte written, offsets kept rising. -/
def insertCell (a : Nat) (b : Byte) : List Host.Cell → List Host.Cell
  | [] => [(a, b)]
  | c :: rest =>
    if a < c.1 then (a, b) :: c :: rest
    else if a = c.1 then (a, b) :: rest
    else c :: insertCell a b rest

/-- The cells with consecutive bytes written from an offset on. -/
def insertCells (a : Nat) : List Byte → List Host.Cell → List Host.Cell
  | [], cs => cs
  | b :: bs, cs => insertCells (a + 1) bs (insertCell a b cs)

/-- The n bytes from an offset on, if all of them have been written. -/
def Memory.readBytes (m : Memory) (a : Nat) : Nat → Option (List Byte)
  | 0 => some []
  | n + 1 =>
    match m.readByte a, m.readBytes (a + 1) n with
    | some b, some bs => some (b :: bs)
    | _, _ => none

/-- `MemWrite(a, n, B)` on the staging buffer: needs a + n ≤ BUF_BYTES and len(B) = n (20_memory.md R61). -/
def Memory.write (m : Memory) (a n : Nat) (bytes : List Byte) : Except Fault Memory :=
  if bytes.length = n ∧ a + n ≤ m.size then .ok { m with cells := insertCells a bytes m.cells }
  else .error .bufferRange

/-- `MemRead(a, n)` on the staging buffer: needs a + n ≤ BUF_BYTES (20_memory.md R61). -/
def Memory.read (m : Memory) (a n : Nat) : Except Fault (List Byte) :=
  if a + n ≤ m.size then
    match m.readBytes a n with
    | some bytes => .ok bytes
    | none => .error .bufferUnwritten
  else .error .bufferRange

/-- The agent whose turn it is (00_scope.md R12, log 2). -/
def Env.agent (e : Env) : Agent :=
  match e.sched with
  | a :: _ => a
  | [] => Config.freeAgent e.freeCount

/-- The environment once the turn has been given. -/
def Env.afterTurn (e : Env) : Env :=
  match e.sched with
  | _ :: rest => { e with sched := rest }
  | [] => { e with freeCount := e.freeCount + 1 }

/-- The state in which the agent takes its turn. -/
def State.afterTurn (s : State) : State := { s with env := s.env.afterTurn }

/-- The state once the host's first pending command has been taken from its list. -/
def State.takeCommand (s : State) : State := { s with env := { s.env with cmds := s.env.cmds.tail } }

/-- Refusal of a pair that spells nothing: REFUSED ← 1 and no other state changes (30_encoding.md R92). -/
def State.refuse (s : State) : State := { s with refused := true }

end Sys2Proof.Machine
end

