-- ==== Sys2Proof/Machine/Scanner.lean ====
section
/-! DEFINITION. The meanings of the scanner's commands, opcodes 0x01 to 0x07 (40_scanner.md). -/

namespace Sys2Proof.Machine

/-- The effects of MUX_INIT on a scanner that is not constructed (40_scanner.md R113). -/
def State.constructMux (s : State) : State :=
  let s1 : State := { s with mux :=
    { constructed := true, enabled := true, state := 0, invMask := 0
      id := Vector.replicate 8 0, tickId := Vector.replicate 8 0 } }
  ((s1.pinWrite .latch true).pinWrite .clk true).pinInput .data

/-- MUX_INIT's effects: none on a scanner that is constructed already (40_scanner.md R113). -/
def State.ensureMux (s : State) : State := if s.mux.constructed then s else s.constructMux

/-- MUX_INIT (40_scanner.md R113). -/
def execMuxInit (s : State) : Answer := whenRunning s fun s => .next s.ensureMux

/-- MUX_BIND slot, id (40_scanner.md R114). From when on MUX_QUERY sees it is `Params.bindRule`'s (log 17). -/
def execMuxBind (slot : Fin 8) (id : ButtonId) (s : State) : Answer :=
  whenRunning s fun s =>
    if s.mux.constructed then .next { s with mux := { s.mux with id := s.mux.id.set slot id } } else .next s

/-- MUX_SETINV slot (40_scanner.md R116). -/
def execMuxSetinv (slot : Fin 8) (s : State) : Answer :=
  whenRunning s fun s =>
    if s.mux.constructed then
      .next { s with mux := { s.mux with invMask := invertedMask s.env.params.invMode s.mux.invMask slot } }
    else .next s

/-- What MUX_TICK does with the 8 bits it read: invert, emit the edges, store (40_scanner.md R118). The bindings of this tick are
kept for the queries after it (70_reset_and_hazards.md R217, log 17). -/
def State.storeSample (s : State) (raw : BitVec 8) : State :=
  let v := raw ^^^ s.mux.invMask
  { s.emit (tickEvents s.mux.id s.mux.state v) with mux := { s.mux with state := v, tickId := s.mux.id } }

/-- MUX_TICK (40_scanner.md R118). -/
def execMuxTick (s : State) : Answer :=
  whenRunning s fun s =>
    if s.mux.constructed && s.mux.enabled then
      match s.readBits 8 with
      | .ok (raw, s1) => .next (s1.storeSample (raw.setWidth 8))
      | .error s1 => .next s1
    else .next s

/-- MUX_QUERY id (40_scanner.md R119). Whether a binding written since the last tick counts is `Params.bindRule`'s: R119 scans
it, 70_reset_and_hazards.md R217 does not (log 17). -/
def execMuxQuery (id : ButtonId) (s : State) : Answer :=
  whenRunning s fun s =>
    if s.mux.constructed then .next { s with res := if s.mux.pressed s.env.params.bindRule id then 1 else 0 }
    else .next { s with res := 0 }

/-- MUX_READBITS n (40_scanner.md R117). -/
def execMuxReadbits (n : Nat) (s : State) : Answer :=
  whenRunning s fun s =>
    if s.mux.constructed then
      match s.readBits n with
      | .ok (v, s1) => .next { s1 with res := v }
      | .error s1 => .next s1
    else .next { s with res := 0 }

/-- MUX_DISABLE (40_scanner.md R120). -/
def execMuxDisable (s : State) : Answer :=
  whenRunning s fun s =>
    if s.mux.constructed then
      let s1 := ((s.pinRelease .latch).pinRelease .clk).pinRelease .data
      .next { s1 with mux := { s1.mux with enabled := false } }
    else .next s

end Sys2Proof.Machine
end

