-- ==== Sys2Proof/Machine/Sequencer.lean ====
section
/-! DEFINITION. The sequencer's steps that have no encoding, and the transfer engine (41_display.md R141–R146, R160–R167). -/

namespace Sys2Proof.Machine

/-- `XferStart(rec)` (41_display.md R160). -/
def State.xferStart (s : State) (r : SendRec) : State :=
  { s.panel (.send r) with xfer := { busy := true, record := some r } }

/-- The transfer engine's completion step: nothing to do unless a transfer is in flight (41_display.md R161). -/
def xferStep (s : State) : Answer :=
  whenRunning s fun s =>
    if s.xfer.busy then .next { s.panel .done with xfer := { busy := false, record := none } } else .next s

/-- `Finish()` (41_display.md R167). -/
def State.finish (s : State) : State := { s with dsp := { s.dsp with inUpdate := false, phase := .idle } }

/-- `StatusPhase()` (41_display.md R164). -/
def State.statusPhase (s : State) : State :=
  if s.dsp.lastStatus.isSome && !s.dsp.doubleSize then { s with dsp := { s.dsp with phase := .sfW2 } } else s.finish

/-- The palette `SelectPalette()` returns (41_display.md R146). -/
def Dsp.selectedPalette (d : Dsp) : Option Palette := if d.newPalette then some d.currPalette else none

/-- The sixteen UNSPECIFIED entries after construction: free values (70_reset_and_hazards.md R212, log 9). -/
def freePalette (count : Nat) : Palette := Vector.ofFn fun k : Fin 16 => Config.freeColour (count + k.val)

/-- The sequencer's elements after `BringUp(v)` (41_display.md R142). -/
def Dsp.broughtUp (p : Params) (v : IdCode) (count : Nat) : Dsp :=
  let cfg := p.config v
  { constructed := true, phase := .idle, inUpdate := false, newPalette := false
    currPalette := freePalette count, palXOR := cfg.palXOR
    width := cfg.width, height := cfg.height, displayHeight := cfg.height
    offX := cfg.offX, offY := cfg.offY, doubleSize := cfg.doubleSize
    modeByte := cfg.modeByte, timingWord := cfg.timingWord, dispId := v
    screenBuf := { size := bufBytes p cfg, cells := [] }, lastStatus := none, cur := none }

/-- `BringUp(v)`: the transport, the panel and the pins in the source's order, then the geometry (41_display.md R142). -/
def State.bringUp (s : State) (v : IdCode) : State :=
  let cfg := s.env.params.config v
  let d := Dsp.broughtUp s.env.params v s.env.freeCount
  let s1 := (s.panel .spiCreate).panel .panelCreate
  let s2 := (s1.panel (.spiSetup cfg.spiFreq cfg.spiMode)).panel (.spiWrite s.env.params.spiInitByte)
  let s3 := (s2.pulse .rst).pinWrite .bl true
  let s4 := ((s3.panel .panelInit).panel (.panelConfigure cfg.modeByte cfg.timingWord)).panel (.setWindow d.mainWindow)
  { s4 with dsp := d, env := { s4.env with freeCount := s4.env.freeCount + 16 } }

/-- The discovery step: pulse RST, read 17 bits, and leave BOOT on a code that is neither 0 nor the sentinel
(41_display.md R141). -/
def discoveryStep (s : State) : Answer :=
  match (s.pulse .rst).readBits 17 with
  | .error s1 => .next s1
  | .ok (v, s1) =>
    let code : IdCode := v.setWidth 17
    if code = disconnected then .next (s1.raise .displayNotFound (.value code.toNat))
    else if code = 0 then .next s1
    else .next (s1.bringUp code)

/-- `MemWrite(0, L, img.data)` and `MemRead(0, L)` with L = IMG_BYTES(img.w, img.h): the buffer after the copy, and the bytes
a send takes from it (20_memory.md R62, R69). -/
def stageImage (p : Params) (m : Memory) (img : Image) : Except Fault (Memory × List Byte) :=
  let len := p.imgBytes img.w.toNat img.h.toNat
  match m.write 0 len img.data with
  | .error f => .error f
  | .ok m1 =>
    match m1.read 0 len with
    | .error f => .error f
    | .ok bytes => .ok (m1, bytes)

/-- Step SF_W1, the main-frame copy and send; it spins while a transfer is in flight (41_display.md R163). -/
def sfW1Step (s : State) : Answer :=
  if s.xfer.busy then .next s
  else match s.dsp.cur with
    | none => .fault .latchEmpty
    | some img =>
      match stageImage s.env.params s.dsp.screenBuf img with
      | .error f => .fault f
      | .ok (m, bytes) =>
        let pal := s.dsp.selectedPalette
        let s1 : State := { s with dsp := { s.dsp with newPalette := false, screenBuf := m } }
        let s2 := s1.xferStart ⟨img.w, img.h, bytes, pal⟩
        .next (State.statusPhase { s2 with dsp := { s2.dsp with cur := none } })

/-- Step SF_W2: validate, copy, window and send the status image; it spins while a transfer is in flight (41_display.md R165). -/
def sfW2Step (s : State) : Answer :=
  if s.xfer.busy then .next s
  else match s.dsp.lastStatus with
    | none => .fault .latchEmpty
    | some img =>
      if img.bpp ≠ 4 then .next (s.raise .statusBpp (.value img.bpp))
      else if !s.dsp.statusDims img then .next (s.raise .statusDim (.dims img.w img.h))
      else
        match stageImage s.env.params s.dsp.screenBuf img with
        | .error f => .fault f
        | .ok (m, bytes) =>
          let s1 : State := { s with dsp := { s.dsp with screenBuf := m } }
          let s2 := (s1.panel (.setWindow s1.dsp.statusWindow)).xferStart ⟨img.w, img.h, bytes, none⟩
          .next { s2 with dsp := { s2.dsp with phase := .sfW3 } }

/-- Step SF_W3: window back, clear the pending image, finish; it spins while a transfer is in flight (41_display.md R166). -/
def sfW3Step (s : State) : Answer :=
  if s.xfer.busy then .next s
  else
    let s1 := s.panel (.setWindow s.dsp.mainWindow)
    .next (State.finish { s1 with dsp := { s1.dsp with lastStatus := none } })

/-- The DSP agent's turn: the step of the phase it is in, and none when IDLE (10_state.md R31). -/
def dspStep (s : State) : Answer :=
  whenRunning s fun s =>
    match s.dsp.phase with
    | .idle => .next s
    | .boot => discoveryStep s
    | .sfW1 => sfW1Step s
    | .sfW2 => sfW2Step s
    | .sfW3 => sfW3Step s

end Sys2Proof.Machine
end

