-- ==== Sys2Proof/Machine/Display.lean ====
section
/-! DEFINITION. The meanings of the display commands, opcodes 0x10 to 0x14 (41_display.md). -/

namespace Sys2Proof.Machine

/-- `raise ModelFault(MF_DSP_BUSY)` with the opcode as info (41_display.md R169, 60_exceptions.md R182). -/
def State.raiseBusy (s : State) (i : Instr) : State := s.raise .dspBusy (.value i.opcode)

/-- DISP_INIT, the acceptance step; nothing once constructed, MF_DSP_BUSY outside IDLE (41_display.md R141, R169). -/
def execDispInit (s : State) : Answer :=
  whenRunning s fun s =>
    if s.dsp.constructed then .next s
    else if s.dsp.phase ≠ .idle then .next (s.raiseBusy .dispInit)
    else .next { s.ensureMux with dsp := { s.ensureMux.dsp with phase := .boot } }

/-- DISP_SETPAL pal (41_display.md R145, R169). -/
def execDispSetpal (pal : List Byte) (s : State) : Answer :=
  whenRunning s fun s =>
    if s.dsp.phase ≠ .idle then .next (s.raiseBusy (.dispSetpal pal))
    else if !s.dsp.constructed then .next s
    else if pal.length ≠ 48 then .next (s.raise .paletteSize (.value pal.length))
    else .next { s with dsp := { s.dsp with currPalette := loadPalette pal s.dsp.palXOR, newPalette := true } }

/-- `raise ModelFault(MF_CFG_IN_FLIGHT)` with (inUpdate, busy) as info (60_exceptions.md R182). -/
def State.raiseInFlight (s : State) : State := s.raise .cfgInFlight (.flight s.dsp.inUpdate s.xfer.busy)

/-- The geometry DISP_CFGSTATUS writes, and the window it reprograms (41_display.md R148). -/
def State.setBar (s : State) (h : Dim) : State :=
  let s1 : State := { s with dsp := { s.dsp with displayHeight := s.dsp.height - h } }
  s1.panel (.setWindow s1.dsp.mainWindow)

/-- DISP_CFGSTATUS h: MF_DSP_BUSY in BOOT, MF_CFG_IN_FLIGHT in a frame sequence, else the checks in order
(41_display.md R148, R169). -/
def execDispCfgstatus (h : Dim) (s : State) : Answer :=
  whenRunning s fun s =>
    if s.dsp.phase = .boot then .next (s.raiseBusy (.dispCfgstatus h))
    else if s.dsp.phase ≠ .idle then .next s.raiseInFlight
    else if !s.dsp.constructed then .next s
    else if s.inFlight then .next s.raiseInFlight
    else if s.dsp.doubleSize then .next s
    else if s.dsp.height.toNat < h.toNat then .next (s.raise .barTooTall (.value h.toNat))
    else .next (s.setBar h)

/-- DISP_SUBMITSTATUS img: a null or empty image changes nothing (41_display.md R147, R169). -/
def execDispSubmitstatus (img : Option Image) (s : State) : Answer :=
  whenRunning s fun s =>
    if s.dsp.phase ≠ .idle then .next (s.raiseBusy (.dispSubmitstatus img))
    else if !s.dsp.constructed then .next s
    else match img with
      | none => .next s
      | some i => if emptyImage i then .next s else .next { s with dsp := { s.dsp with lastStatus := some i } }

/-- The acceptance of a frame with the guard taken: the checks in order, then the latch, or the status phase when no image is
supplied (41_display.md R162). -/
def State.acceptFrame (s : State) (img : Option Image) : State :=
  match img with
  | none => s.statusPhase
  | some i =>
    if i.bpp ≠ 4 then s.raise .frameBpp (.value i.bpp)
    else if !s.dsp.frameDims i then s.raise .frameDim (.dims i.w i.h)
    else { s with dsp := { s.dsp with cur := some i, phase := .sfW1 } }

/-- DISP_SUBMITFRAME img: dropped while an update is in progress, MF_DSP_BUSY in BOOT (41_display.md R162, R168, R169). -/
def execDispSubmitframe (img : Option Image) (s : State) : Answer :=
  whenRunning s fun s =>
    if s.dsp.phase = .boot then .next (s.raiseBusy (.dispSubmitframe img))
    else if s.dsp.inUpdate then .next s
    else if s.dsp.phase ≠ .idle then .next (s.raiseBusy (.dispSubmitframe img))
    else if !s.dsp.constructed then .next s
    else .next (State.acceptFrame { s with dsp := { s.dsp with inUpdate := true } } img)

end Sys2Proof.Machine
end

