-- ==== Sys2Proof/Machine/Dispatch.lean ====
section
/-! DEFINITION. One arm per command (30_encoding.md R85). -/

namespace Sys2Proof.Machine

def exec (i : Instr) (s : State) : Host.Outcome State Fault Refusal :=
  match i with
  | .muxInit => Sys2Proof.Machine.execMuxInit s
  | .muxBind slot id => Sys2Proof.Machine.execMuxBind slot id s
  | .muxSetinv slot => Sys2Proof.Machine.execMuxSetinv slot s
  | .muxTick => Sys2Proof.Machine.execMuxTick s
  | .muxQuery id => Sys2Proof.Machine.execMuxQuery id s
  | .muxReadbits n => Sys2Proof.Machine.execMuxReadbits n s
  | .muxDisable => Sys2Proof.Machine.execMuxDisable s
  | .dispInit => Sys2Proof.Machine.execDispInit s
  | .dispSetpal pal => Sys2Proof.Machine.execDispSetpal pal s
  | .dispCfgstatus h => Sys2Proof.Machine.execDispCfgstatus h s
  | .dispSubmitstatus img => Sys2Proof.Machine.execDispSubmitstatus img s
  | .dispSubmitframe img => Sys2Proof.Machine.execDispSubmitframe img s

end Sys2Proof.Machine
end

