-- ==== Sys2Proof/Machine/Turn.lean ====
section
/-! DEFINITION. The turn of each agent (00_scope.md R12): presenting a command, the tick, and the word a command stands in. -/

namespace Sys2Proof.Machine

/-- `present(W, P)`: run the command the pair spells, or refuse it (30_encoding.md R92). -/
def present (c : Command) (s : State) : Answer :=
  match decode s.env.params c.word c.payload with
  | .ok i => exec i s
  | .error _ => whenRunning s fun s => .next s.refuse

/-- The host's turn: present the first pending command, if there is one (70_reset_and_hazards.md R223). -/
def hostStep (s : State) : Answer :=
  match s.env.cmds with
  | [] => whenRunning s .next
  | c :: _ => present c s.takeCommand

/-- The tick source's turn: MUX_TICK while the scanner is constructed and enabled (40_scanner.md R121). -/
def tickStep (s : State) : Answer :=
  if s.mux.constructed && s.mux.enabled then exec .muxTick s else whenRunning s .next

/-- The turn of an agent. -/
def agentStep (a : Agent) (s : State) : Answer :=
  match a with
  | .host => hostStep s
  | .tick => tickStep s
  | .dsp => dspStep s
  | .xfer => xferStep s

/-- The state in which the host's next turn, which is the next turn, presents a command before all others. -/
def State.presentNext (s : State) (c : Command) : State :=
  { s with env := { s.env with cmds := c :: s.env.cmds, sched := .host :: s.env.sched } }

end Sys2Proof.Machine
end

