-- ==== Sys2Proof/Machine/Step.lean ====
section
/-! DEFINITION. One step: the agent whose turn it is takes its step (00_scope.md R12). -/

namespace Sys2Proof.Machine

/-- One step of the block: one turn of one agent, atomic (00_scope.md R12, 20_memory.md R72). -/
def step (s : State) : Host.Outcome State Fault Refusal := agentStep s.env.agent s.afterTurn

/-- s with the instruction of an opcode-table word, and the plain payload beside it, as the command the very next step presents
(log 4). -/
def State.withFetchWord (s : State) (nbits w : Nat) : State :=
  s.presentNext ⟨tableWord nbits w, plainPayload (tableWord nbits w)⟩

end Sys2Proof.Machine
end

