-- ==== Sys2Proof/Safety.lean ====
section
/-! DEFINITION. What claims say of a run: its successful end, the invariant every step keeps, and the panel's view read off
QTRACE. -/

namespace Sys2Proof.Machine

/-- A successful end of a run (70_reset_and_hazards.md R223). -/
def State.successfulEnd (s : State) : Prop :=
  s.fault = none ∧ s.refused = false ∧ s.dsp.phase = .idle ∧ s.xfer.busy = false ∧ s.env.cmds = []

/-- The value of a list of sampled bits, the first one most significant (40_scanner.md R111). -/
def bitsValue (ds : List Bool) : Word := ds.foldl shiftBit 0

/-- The records one sampled bit leaves (40_scanner.md R111). -/
def bitRecords (d : Bool) : List PinRec := [.sample .data d, .pin .clk (.out false), .pin .clk (.out true)]

/-- The PTRACE a ReadBits of the bits ds leaves: the latch pulse, then three records a bit (40_scanner.md R111). -/
def readRecords (ds : List Bool) : List PinRec :=
  [.pin .latch (.out false), .pin .latch (.out true)] ++ ds.flatMap bitRecords

/-- The pins after a ReadBits of n bits. -/
def readPins (pins : Pins) (n : Nat) : Pins :=
  if n = 0 then { pins with latch := .out true } else { pins with latch := .out true, clk := .out true }

/-- The state a ReadBits of n bits leaves: the samples drawn, the pins driven, the records appended, nothing else. -/
def State.afterRead (s : State) (n : Nat) : State :=
  { s with pins := readPins s.pins n, ptrace := s.ptrace ++ readRecords (s.env.levels n), env := s.env.afterLevels n }

/-- The panel's current window: the argument of the latest SET_WINDOW (10_state.md R53). A view, not state. -/
def panelWindow : List PanelRec → Option Window
  | [] => none
  | r :: rest =>
    match panelWindow rest, r with
    | some w, _ => some w
    | none, .setWindow w => some w
    | none, _ => none

/-- The panel's resident palette: that of the latest SEND that carried one (10_state.md R53). A view, not state. -/
def panelPalette : List PanelRec → Option Palette
  | [] => none
  | r :: rest =>
    match panelPalette rest, r with
    | some p, _ => some p
    | none, .send x => x.pal
    | none, _ => none

/-- The transfer in flight as QTRACE tells it: `some` of it after a SEND and none after a DONE, and no answer at all if a SEND
comes while one is in flight or a DONE while none is. -/
def traceTransfer : List PanelRec → Option SendRec → Option (Option SendRec)
  | [], now => some now
  | r :: rest, now =>
    match r, now with
    | .send x, none => traceTransfer rest (some x)
    | .send _, some _ => none
    | .done, some _ => traceTransfer rest none
    | .done, none => none
    | _, now => traceTransfer rest now

/-- An image the status bar can hold until its flush: well formed, and with a pixel (41_display.md R147). -/
def pendingStatusOk (p : Params) (img : Image) : Prop := img.wf p = true ∧ emptyImage img = false

/-- A frame that was accepted: 4 bits per pixel, the exact size, and well formed (41_display.md R151, R162). -/
def acceptedFrame (s : State) (img : Image) : Prop :=
  img.bpp = 4 ∧ s.dsp.frameDims img = true ∧ img.wf s.env.params = true

/-- The invariant of the block: what holds at reset and after every step, from the whole-machine sentences of 10_state.md and
41_display.md. -/
structure Inv (s : State) : Prop where
  /-- The staging buffer keeps its canonical form. -/
  bufferForm : s.dsp.screenBuf.wf
  /-- The buffer has BUF_BYTES bytes once the display is constructed, and none before (10_state.md R42). -/
  bufferSize : s.dsp.screenBuf.size =
    if s.dsp.constructed then s.env.params.imgBytes s.dsp.width.toNat s.dsp.height.toNat else 0
  /-- An enabled scanner is constructed (10_state.md R22). -/
  enabledConstructed : s.mux.enabled = true → s.mux.constructed = true
  /-- The display comes up over a constructed scanner (41_display.md R143). -/
  displayOverScanner : s.dsp.constructed = true ∨ s.dsp.phase = .boot → s.mux.constructed = true
  /-- BOOT is before construction, a frame sequence after it (10_state.md R31). -/
  bootUnconstructed : s.dsp.phase = .boot → s.dsp.constructed = false
  submittingConstructed : s.dsp.phase.submitting = true → s.dsp.constructed = true
  /-- The reentrancy guard is set exactly in a frame sequence, unless a fatal cut the acceptance short (10_state.md R32, log 12). -/
  guardInSequence : s.fault = none → s.dsp.inUpdate = s.dsp.phase.submitting
  /-- The main region is never higher than the panel, and as high as it in double-size mode (10_state.md R37). -/
  heightBound : s.dsp.displayHeight.toNat ≤ s.dsp.height.toNat
  doubleFull : s.dsp.doubleSize = true → s.dsp.displayHeight = s.dsp.height
  /-- A latched frame waits in SF_W1 and was accepted. -/
  frameLatched : s.dsp.phase = .sfW1 → ∃ img, s.dsp.cur = some img ∧ acceptedFrame s img
  /-- A pending status image is well formed and not empty; SF_W2 and SF_W3 have one, and are never taken in double-size mode. -/
  statusKept : ∀ img, s.dsp.lastStatus = some img → pendingStatusOk s.env.params img
  statusPending : s.dsp.phase = .sfW2 ∨ s.dsp.phase = .sfW3 → s.dsp.lastStatus.isSome = true ∧ s.dsp.doubleSize = false
  /-- A status image being sent passed the checks of SF_W2. -/
  statusSent : s.dsp.phase = .sfW3 → ∀ img, s.dsp.lastStatus = some img → img.bpp = 4 ∧ s.dsp.statusDims img = true
  /-- `XFER.rec` is the record of the send in flight, or none (10_state.md R46). -/
  recordInFlight : s.xfer.busy = s.xfer.record.isSome
  /-- Sends and completions alternate in QTRACE, and the last open one is the transfer in flight (41_display.md R160, R161). -/
  traceSerial : traceTransfer s.qtrace none = some s.xfer.record
  /-- The scanner's pins: unconfigured, primed or released (10_state.md R26). -/
  scannerPins : (s.pins.latch, s.pins.clk, s.pins.data) =
    if s.mux.constructed then
      if s.mux.enabled then (.out true, .out true, .inPd) else (.neutral, .neutral, .neutral)
    else (.unconfigured, .unconfigured, .unconfigured)
  /-- The sequencer's pins after bring-up (10_state.md R45). -/
  displayPins : s.dsp.constructed = true → s.pins.rst = .out true ∧ s.pins.bl = .out true
  /-- Before construction the panel has been told nothing (41_display.md R142). -/
  traceEmpty : s.dsp.constructed = false → s.qtrace = []
  /-- The panel's window is the status window during a status send and the main window otherwise (41_display.md R142, R148,
  R165, R166). -/
  windowCurrent : s.dsp.constructed = true →
    panelWindow s.qtrace = some (if s.dsp.phase = .sfW3 then s.dsp.statusWindow else s.dsp.mainWindow)

/-- The pair (W, P) spells the command i: it is i's encoding, and it decodes to i whenever i is well formed. -/
def Spells (i : Instr) (w : Nat) (pl : Payload) : Prop :=
  encode i = ⟨BitVec.ofNat 32 w, pl⟩ ∧ ∀ p : Params, i.wf p = true → decode p (BitVec.ofNat 32 w) pl = .ok i

/-- A row of the opcode map (30_encoding.md R85). -/
structure OpcodeRow where
  opcode  : Nat
  pattern : Word
  mask    : Word
  deriving DecidableEq, Repr

/-- The opcode map's columns OPC, match and mask, row by row (30_encoding.md R85). -/
def opcodeMap : List OpcodeRow :=
  [⟨0x01, 0x01000000, 0xFFFFFFFF⟩, ⟨0x02, 0x02000000, 0xFFFFF800⟩, ⟨0x03, 0x03000000, 0xFFFFF8FF⟩,
    ⟨0x04, 0x04000000, 0xFFFFFFFF⟩, ⟨0x05, 0x05000000, 0xFFFFFF00⟩, ⟨0x06, 0x06000000, 0xFFFFFFC0⟩,
    ⟨0x07, 0x07000000, 0xFFFFFFFF⟩, ⟨0x10, 0x10000000, 0xFFFFFFFF⟩, ⟨0x11, 0x11000000, 0xFFFFFFFF⟩,
    ⟨0x12, 0x12000000, 0xFFFF0000⟩, ⟨0x13, 0x13000000, 0xFFFFFFFE⟩, ⟨0x14, 0x14000000, 0xFFFFFFFE⟩]

/-- A word's masked bits are the row's. -/
def OpcodeRow.matches (r : OpcodeRow) (w : Word) : Prop := w &&& r.mask = r.pattern

/-- The opcode map's column "extra condition", with the payload rule R84 (30_encoding.md R85). -/
def OpcodeRow.extra (r : OpcodeRow) (p : Params) (w : Word) (pl : Payload) : Prop :=
  if r.opcode = 0x06 then (w.extractLsb' 0 6).toNat ≤ 32 ∧ pl = .none
  else if r.opcode = 0x11 then ∃ bytes, pl = .palette bytes
  else if r.opcode = 0x13 ∨ r.opcode = 0x14 then
    (w.getLsbD 0 = true ∧ ∃ img, pl = .image img ∧ img.wf p = true) ∨ (w.getLsbD 0 = false ∧ pl = .none)
  else pl = .none

/-- The command the next step runs, if it is the host's turn and the first pending pair spells one. -/
def State.presented (s : State) : Option Instr :=
  match s.env.agent, s.env.cmds with
  | .host, c :: _ => (decode s.env.params c.word c.payload).toOption
  | _, _ => none

/-- The 17-bit code the next step reads if it is a discovery step (41_display.md R141). -/
def State.nextCode (s : State) : IdCode := (bitsValue (s.env.afterTurn.levels 17)).setWidth 17

/-- The cause and the info of a fault code, as the next step of s raises it (60_exceptions.md R182). -/
def FaultCause (s : State) : FaultCode → FaultInfo → Prop
  | .displayNotFound, info =>
    s.env.agent = .dsp ∧ s.dsp.phase = .boot ∧ s.nextCode = 0x1FFFF ∧ info = .value 0x1FFFF
  | .paletteSize, info =>
    ∃ pal, s.presented = some (.dispSetpal pal) ∧ pal.length ≠ 48 ∧ info = .value pal.length
  | .frameBpp, info =>
    ∃ img, s.presented = some (.dispSubmitframe (some img)) ∧ img.bpp ≠ 4 ∧ info = .value img.bpp
  | .frameDim, info =>
    ∃ img, s.presented = some (.dispSubmitframe (some img)) ∧ img.bpp = 4 ∧
      (img.w.toNat * s.dsp.scale ≠ s.dsp.width.toNat ∨ img.h.toNat * s.dsp.scale ≠ s.dsp.displayHeight.toNat) ∧
      info = .dims img.w img.h
  | .statusBpp, info =>
    ∃ img, s.env.agent = .dsp ∧ s.dsp.phase = .sfW2 ∧ s.dsp.lastStatus = some img ∧ img.bpp ≠ 4 ∧
      info = .value img.bpp
  | .statusDim, info =>
    ∃ img, s.env.agent = .dsp ∧ s.dsp.phase = .sfW2 ∧ s.dsp.lastStatus = some img ∧ img.bpp = 4 ∧
      (img.w ≠ s.dsp.width ∨ img.h.toNat ≠ s.dsp.height.toNat - s.dsp.displayHeight.toNat) ∧
      info = .dims img.w img.h
  | .readDisabled, info =>
    s.mux.enabled = false ∧ info = .none ∧
      ((∃ n, s.presented = some (.muxReadbits n) ∧ s.mux.constructed = true) ∨
        (s.env.agent = .dsp ∧ s.dsp.phase = .boot))
  | .cfgInFlight, info =>
    ∃ h, s.presented = some (.dispCfgstatus h) ∧ s.dsp.phase ≠ .boot ∧
      (s.dsp.phase ≠ .idle ∨ s.dsp.inUpdate = true ∨ s.xfer.busy = true) ∧
      info = .flight s.dsp.inUpdate s.xfer.busy
  | .barTooTall, info =>
    ∃ h, s.presented = some (.dispCfgstatus h) ∧ s.dsp.doubleSize = false ∧ s.dsp.height.toNat < h.toNat ∧
      info = .value h.toNat
  | .dspBusy, info =>
    ∃ i, s.presented = some i ∧ 0x10 ≤ i.opcode ∧ s.dsp.phase ≠ .idle ∧ info = .value i.opcode

/-- Two states that differ at most in what the spec calls UNSPECIFIED: the staging buffer's bytes, and the palette as long as
DISP_SETPAL has not marked it dirty (70_reset_and_hazards.md R213). -/
def SameSpecified (s t : State) : Prop :=
  t = { s with dsp := { s.dsp with currPalette := t.dsp.currPalette, screenBuf := t.dsp.screenBuf } } ∧
    t.dsp.screenBuf.size = s.dsp.screenBuf.size ∧
    (s.dsp.newPalette = true → t.dsp.currPalette = s.dsp.currPalette)

/-- Two answers that stop for the same reason or go on to states that differ only in what is UNSPECIFIED. -/
def SameAnswers : Answer → Answer → Prop
  | .next s, .next t => SameSpecified s t
  | .fault a, .fault b => a = b
  | .refused a, .refused b => a = b
  | _, _ => False

end Sys2Proof.Machine
end

