-- ==== Sys2Proof/Certificates/Slice0/Obligations.lean ====
section
/-! DEFINITION. The statements for the provers. A statement whose docstring names a log entry rests on that choice of the model
in the clause it names. -/

open Sys2Proof Sys2Proof.Machine

/-! ## Encoding and decoding -/

/-- Every well-formed command's encoding decodes to it (30_encoding.md R82–R86). -/
def Obligations.DecodeInvertsEncode : Prop :=
  ∀ (p : Params) (i : Instr), i.wf p = true → decode p (encode i).word (encode i).payload = .ok i

/-- A pair that decodes is the encoding of the command it decodes to, and that command is well formed (30_encoding.md R85, R91). -/
def Obligations.EncodeInvertsDecode : Prop :=
  ∀ (p : Params) (w : Word) (pl : Payload) (i : Instr), decode p w pl = .ok i → encode i = ⟨w, pl⟩ ∧ i.wf p = true

/-- The decoder accepts exactly the pairs that select a row of the opcode map, as that row's command, and no word matches two
rows (30_encoding.md R85). -/
def Obligations.DecoderFollowsOpcodeMap : Prop :=
  (∀ (p : Params) (w : Word) (pl : Payload) (i : Instr), decode p w pl = .ok i →
    ∃ r ∈ opcodeMap, r.opcode = i.opcode ∧ r.matches w ∧ r.extra p w pl) ∧
  (∀ (p : Params) (w : Word) (pl : Payload), ∀ r ∈ opcodeMap, r.matches w → r.extra p w pl →
    ∃ i, decode p w pl = .ok i ∧ i.opcode = r.opcode) ∧
  (∀ w : Word, ∀ r ∈ opcodeMap, ∀ r' ∈ opcodeMap, r.matches w → r'.matches w → r = r')

/-- The worked encodings (30_encoding.md R87). -/
def Obligations.WorkedEncodingsDecode : Prop :=
  ∀ p : Params,
    decode p 0x02000307 .none = .ok (.muxBind 3 7) ∧ decode p 0x03000300 .none = .ok (.muxSetinv 3) ∧
    decode p 0x05000007 .none = .ok (.muxQuery 7) ∧ decode p 0x06000011 .none = .ok (.muxReadbits 17) ∧
    decode p 0x06000008 .none = .ok (.muxReadbits 8) ∧ decode p 0x12000008 .none = .ok (.dispCfgstatus 8) ∧
    decode p 0x14000000 .none = .ok (.dispSubmitframe none) ∧
    ∀ img : Image, img.wf p = true →
      decode p 0x14000001 (.image img) = .ok (.dispSubmitframe (some img)) ∧
      decode p 0x13000001 (.image img) = .ok (.dispSubmitstatus (some img))

/-! ## The step, and the agents' turns -/

/-- On the host's turn, a pending pair that decodes to i is taken from the host's list and i runs (30_encoding.md R92). What
fixes the turn is the model's own list of agents (log 2): a listed turn is used up, and an unlisted one uses up a free value. -/
def Obligations.StepRunsDecodedCommand : Prop :=
  ∀ (s : State) (c : Command) (rest : List Command) (i : Instr),
    s.fault = none → s.env.agent = .host → s.env.cmds = c :: rest →
    decode s.env.params c.word c.payload = .ok i →
    step s = exec i { s with env := { s.env with
      cmds := rest
      sched := s.env.sched.tail
      freeCount := if s.env.sched = [] then s.env.freeCount + 1 else s.env.freeCount } }

/-- On the host's turn, a pending pair that spells no well-formed command is refused: REFUSED ← 1 and no other element changes
(30_encoding.md R92). The environment moves on as in StepRunsDecodedCommand (log 2). -/
def Obligations.StepRefusesWhatSpellsNothing : Prop :=
  ∀ (s : State) (c : Command) (rest : List Command),
    s.fault = none → s.env.agent = .host → s.env.cmds = c :: rest →
    (∀ i : Instr, i.wf s.env.params = true → encode i ≠ c) →
    step s = .next { s with
      refused := true
      env := { s.env with
        cmds := rest
        sched := s.env.sched.tail
        freeCount := if s.env.sched = [] then s.env.freeCount + 1 else s.env.freeCount } }

/-- On the tick source's turn MUX_TICK runs while the scanner is constructed and enabled (40_scanner.md R121); otherwise the
turn changes no element, which is the model's choice (log 3). -/
def Obligations.TickSourceDeliversMuxTick : Prop :=
  ∀ s : State, s.fault = none → s.env.agent = .tick →
    (s.mux.constructed = true → s.mux.enabled = true → step s = exec .muxTick s.afterTurn) ∧
    (s.mux.constructed = false ∨ s.mux.enabled = false → step s = .next s.afterTurn)

/-- On the transfer engine's turn a transfer in flight completes: busy 0, no record, a DONE in QTRACE (41_display.md R161); with
none in flight the turn changes no element, which is the model's choice (log 3). -/
def Obligations.TransferCompletes : Prop :=
  ∀ s : State, s.fault = none →
    (s.xfer.busy = true →
      xferStep s = .next { s with xfer := ⟨false, none⟩, qtrace := s.qtrace ++ [.done] }) ∧
    (s.xfer.busy = false → xferStep s = .next s) ∧
    (s.env.agent = .xfer → step s = xferStep s.afterTurn)

/-- Once FAULT is set no agent has a step and no command has an effect (00_scope.md R14, 60_exceptions.md R180). -/
def Obligations.HaltedBlockHasNoStep : Prop :=
  ∀ s : State, s.fault ≠ none → step s = .fault .halted ∧ ∀ i : Instr, exec i s = .fault .halted

/-- In every state that meets the invariant and has no fault, the next step goes on: the model's stops for accesses outside the
buffer, for unwritten bytes and for empty latches are never reached (20_memory.md R61, logs 10 and 11). That an agent with no
enabled step takes a turn too, changing nothing, is the model's choice (log 3). -/
def Obligations.RunningBlockAlwaysSteps : Prop :=
  ∀ s : State, Inv s → s.fault = none → ∃ t, step s = .next t

/-- Every step keeps the invariant. -/
def Obligations.EveryStepKeepsInv : Prop :=
  ∀ s t : State, Inv s → step s = .next t → Inv t

/-- The invariant holds right after reset. -/
def Obligations.ResetMeetsInv : Prop := Inv State.reset

/-- A reset puts every element at its reset value (70_reset_and_hazards.md R210, 10_state.md R20), whatever the environment.
Nothing is said of currPalette, which R20 leaves UNSPECIFIED (log 8), nor of tickId, which is the model's own (log 17). -/
def Obligations.ResetGivesResetValues : Prop :=
  State.reset = State.powerOn State.reset.env ∧
  ∀ env : Env,
    (State.powerOn env).mux = ⟨false, false, 0, 0, Vector.replicate 8 0, (State.powerOn env).mux.tickId⟩ ∧
    (State.powerOn env).pins = ⟨.unconfigured, .unconfigured, .unconfigured, .unconfigured, .unconfigured⟩ ∧
    (State.powerOn env).dsp = ⟨false, .idle, false, false, (State.powerOn env).dsp.currPalette, 0, 0, 0, 0, 0, 0, false,
      0, 0, 0, ⟨0, []⟩, none, none⟩ ∧
    (State.powerOn env).xfer = ⟨false, none⟩ ∧ (State.powerOn env).fault = none ∧
    (State.powerOn env).refused = false ∧ (State.powerOn env).res = 0 ∧ (State.powerOn env).evq = [] ∧
    (State.powerOn env).ptrace = [] ∧ (State.powerOn env).qtrace = [] ∧ (State.powerOn env).env = env

/-! ## Whole-machine rules -/

/-- No step changes the parameters (10_state.md R20, 00_scope.md R8), and REFUSED is never cleared (R47). -/
def Obligations.ParametersNeverChange : Prop :=
  ∀ s t : State, step s = .next t →
    t.env.params = s.env.params ∧ (s.refused = true → t.refused = true)

/-- Construction is never undone, and a scanner disabled after construction stays disabled (10_state.md R21, R22, R30). -/
def Obligations.ConstructionIsForLife : Prop :=
  ∀ s t : State, step s = .next t →
    (s.mux.constructed = true → t.mux.constructed = true ∧ (s.mux.enabled = false → t.mux.enabled = false)) ∧
    (s.dsp.constructed = true → t.dsp.constructed = true)

/-- What bring-up wrote from the configuration is read-only afterwards (10_state.md R35, R36, R38–R41). -/
def Obligations.ConfigurationReadOnlyAfterBringUp : Prop :=
  ∀ s t : State, Inv s → s.dsp.constructed = true → step s = .next t →
    t.dsp.palXOR = s.dsp.palXOR ∧ t.dsp.width = s.dsp.width ∧ t.dsp.height = s.dsp.height ∧
    t.dsp.offX = s.dsp.offX ∧ t.dsp.offY = s.dsp.offY ∧ t.dsp.doubleSize = s.dsp.doubleSize ∧
    t.dsp.modeByte = s.dsp.modeByte ∧ t.dsp.timingWord = s.dsp.timingWord ∧ t.dsp.dispId = s.dsp.dispId

/-- The staging buffer is never written while a transfer is in flight (41_display.md R170(f)). -/
def Obligations.BufferUntouchedInFlight : Prop :=
  ∀ s t : State, Inv s → s.xfer.busy = true → step s = .next t → t.dsp.screenBuf = s.dsp.screenBuf

/-- The main region's height changes after construction only by a DISP_CFGSTATUS presented in IDLE with no update in flight and
outside double-size mode (10_state.md R37). -/
def Obligations.HeightChangesOnlyAtRest : Prop :=
  ∀ s t : State, Inv s → s.dsp.constructed = true → step s = .next t →
    t.dsp.displayHeight ≠ s.dsp.displayHeight →
    (∃ h, s.presented = some (.dispCfgstatus h) ∧ t.dsp.displayHeight.toNat = s.dsp.height.toNat - h.toNat) ∧
    s.dsp.phase = .idle ∧ s.dsp.inUpdate = false ∧ s.xfer.busy = false ∧ s.dsp.doubleSize = false

/-- The outputs: EVQ, PTRACE and QTRACE only grow at their ends, and each output is written only by what its rule names
(10_state.md R48–R51). Events come from MUX_TICK alone and RES from MUX_QUERY and MUX_READBITS; pin records from the commands
and the discovery step that call a pin primitive; panel records from DISP_CFGSTATUS, the sequencer's steps and completions. -/
def Obligations.OutputsOnlyGrow : Prop :=
  ∀ s t : State, step s = .next t →
    (∃ es, t.evq = s.evq ++ es) ∧ (∃ ps, t.ptrace = s.ptrace ++ ps) ∧ (∃ qs, t.qtrace = s.qtrace ++ qs) ∧
    (t.evq ≠ s.evq → s.env.agent = .tick ∨ s.presented = some .muxTick) ∧
    (t.ptrace ≠ s.ptrace →
      s.env.agent = .tick ∨ (s.env.agent = .dsp ∧ s.dsp.phase = .boot) ∨
      s.presented ∈ [some .muxInit, some .muxTick, some .muxDisable, some .dispInit] ∨
      ∃ n, s.presented = some (.muxReadbits n)) ∧
    (t.qtrace ≠ s.qtrace →
      (s.env.agent = .dsp ∧ s.dsp.phase ≠ .idle) ∨ (s.env.agent = .xfer ∧ s.xfer.busy = true) ∨
      ∃ h, s.presented = some (.dispCfgstatus h)) ∧
    (t.res ≠ s.res →
      (∃ id, s.presented = some (.muxQuery id)) ∨ ∃ n, s.presented = some (.muxReadbits n))

/-- The phase moves only as 10_state.md R31 lists, BOOT and the frame phases only in the DSP agent's turn, and a frame phase
only with no transfer in flight. -/
def Obligations.PhaseMovesAsListed : Prop :=
  ∀ s t : State, step s = .next t → t.dsp.phase ≠ s.dsp.phase →
    (s.dsp.phase, t.dsp.phase) ∈
      [(Phase.idle, Phase.boot), (Phase.idle, Phase.sfW1), (Phase.idle, Phase.sfW2), (Phase.boot, Phase.idle),
        (Phase.sfW1, Phase.sfW2), (Phase.sfW1, Phase.idle), (Phase.sfW2, Phase.sfW3), (Phase.sfW3, Phase.idle)] ∧
    (s.dsp.phase ≠ .idle → s.env.agent = .dsp) ∧
    (s.dsp.phase.submitting = true → s.xfer.busy = false)

/-- A fault a step raises has the cause and the info of 60_exceptions.md R182, and no step overwrites one. -/
def Obligations.FaultsHaveTheirCauses : Prop :=
  ∀ (s t : State) (code : FaultCode) (info : FaultInfo),
    step s = .next t → t.fault = some (code, info) → s.fault = none ∧ FaultCause s code info

/-- What the spec calls UNSPECIFIED is never observable: two states that differ only in it take the same step to states that
differ only in it (70_reset_and_hazards.md R213). -/
def Obligations.UnspecifiedValuesNeverObserved : Prop :=
  ∀ s t : State, SameSpecified s t → SameAnswers (step s) (step t)

/-- At a successful end of a run only ticks happen, and a tick changes only MUX.state, EVQ and PTRACE, beside the model's own
tickId (log 17) and env: the state after any step is again a successful end (70_reset_and_hazards.md R223). -/
def Obligations.SuccessfulEndIsQuiet : Prop :=
  ∀ s t : State, Inv s → s.successfulEnd → step s = .next t →
    t = { s with
      mux := { s.mux with state := t.mux.state, tickId := t.mux.tickId }
      evq := t.evq
      ptrace := t.ptrace
      env := t.env } ∧
    (s.env.agent ≠ .tick → t.mux = s.mux ∧ t.evq = s.evq ∧ t.ptrace = s.ptrace) ∧
    t.successfulEnd

/-! ## The shift-in -/

/-- ReadBits on an enabled scanner: the value of the bits drawn and exactly the records of 40_scanner.md R111; on a disabled one,
MF_READ_DISABLED before anything else. -/
def Obligations.ReadBitsRunsTheProtocol : Prop :=
  ∀ (s : State) (n : Nat), n ≤ 32 →
    (s.mux.enabled = true → ∃ t : State,
      s.readBits n = .ok ((s.env.levels n).foldl (fun acc d => acc <<< 1 ||| (BitVec.ofBool d).setWidth 32) 0, t) ∧
      t = { s with
        pins := t.pins
        ptrace := s.ptrace ++ [.pin .latch (.out false), .pin .latch (.out true)] ++
          (s.env.levels n).flatMap fun d => [.sample .data d, .pin .clk (.out false), .pin .clk (.out true)]
        env := s.env.afterLevels n } ∧
      t.ptrace.length = s.ptrace.length + 2 + 3 * n ∧
      t.pins.latch = .out true ∧ (0 < n → t.pins.clk = .out true) ∧ (n = 0 → t.pins.clk = s.pins.clk) ∧
      t.pins.data = s.pins.data ∧ t.pins.rst = s.pins.rst ∧ t.pins.bl = s.pins.bl) ∧
    (s.mux.enabled = false → s.readBits n = .error { s with fault := some (.readDisabled, .none) })

/-- The k-th sample is bit n−1−k of the result, which is the sum of the samples' weights and below 2^n; input i of an 8-bit
sample is the sample taken at 7−i (40_scanner.md R112). -/
def Obligations.FirstSampleIsMostSignificant : Prop :=
  (∀ ds : List Bool, ds.length ≤ 32 →
    (∀ k : Fin ds.length, (bitsValue ds).getLsbD (ds.length - 1 - k.val) = ds[k]) ∧
    (bitsValue ds).toNat = ∑ k : Fin ds.length, ds[k].toNat * 2 ^ (ds.length - 1 - k.val) ∧
    (bitsValue ds).toNat < 2 ^ ds.length) ∧
  (∀ ds : List Bool, ∀ h : ds.length = 8, ∀ i : Fin 8,
    ((bitsValue ds).setWidth 8).getLsbD i.val = ds[7 - i.val]'(by omega)) ∧
  bitsValue [] = 0

/-! ## Scanner commands -/

/-- MUX_INIT (40_scanner.md R113). That tickId, the model's own, is zeroed with the bindings is its choice (log 17). -/
def Obligations.MuxInitConstructsOnce : Prop :=
  Spells .muxInit 0x01000000 .none ∧
  ∀ s : State, s.fault = none →
    (s.mux.constructed = false → exec .muxInit s = .next { s with
      mux := ⟨true, true, 0, 0, Vector.replicate 8 0, Vector.replicate 8 0⟩
      pins := { s.pins with latch := .out true, clk := .out true, data := .inPd }
      ptrace := s.ptrace ++ [.pin .latch (.out true), .pin .clk (.out true), .pin .data .inPd] }) ∧
    (s.mux.constructed = true → exec .muxInit s = .next s)

/-- MUX_BIND (40_scanner.md R114). -/
def Obligations.MuxBindWritesOneBinding : Prop :=
  ∀ (slot : Fin 8) (id : ButtonId),
    Spells (.muxBind slot id) (0x02000000 + slot.val * 2 ^ 8 + id.toNat) .none ∧
    ∀ s : State, s.fault = none →
      (s.mux.constructed = true → ∃ ids : Vector ButtonId 8,
        exec (.muxBind slot id) s = .next { s with mux := { s.mux with id := ids } } ∧
        ids[slot] = id ∧ ∀ j : Fin 8, j ≠ slot → ids[j] = s.mux.id[j]) ∧
      (s.mux.constructed = false → exec (.muxBind slot id) s = .next s)

/-- MUX_SETINV under both values of INV_MODE (40_scanner.md R116). -/
def Obligations.MuxSetinvSetsOrToggles : Prop :=
  ∀ slot : Fin 8,
    Spells (.muxSetinv slot) (0x03000000 + slot.val * 2 ^ 8) .none ∧
    ∀ s : State, s.fault = none →
      (s.mux.constructed = true → ∃ mask : BitVec 8,
        exec (.muxSetinv slot) s = .next { s with mux := { s.mux with invMask := mask } } ∧
        (∀ j : Fin 8, j ≠ slot → mask.getLsbD j.val = s.mux.invMask.getLsbD j.val) ∧
        (s.env.params.invMode = .set → mask.getLsbD slot.val = true) ∧
        (s.env.params.invMode = .toggle → mask.getLsbD slot.val = !s.mux.invMask.getLsbD slot.val)) ∧
      (s.mux.constructed = false → exec (.muxSetinv slot) s = .next s)

/-- MUX_TICK: sample, invert, emit the edges of bound bits in increasing index, store (40_scanner.md R118). That the bindings of
the tick are kept beside them is the model's choice (log 17). -/
def Obligations.MuxTickSamplesEmitsAndStores : Prop :=
  Spells .muxTick 0x04000000 .none ∧
  ∀ s : State, s.fault = none →
    (s.mux.constructed = true → s.mux.enabled = true →
      ∀ v : BitVec 8, v = (bitsValue (s.env.levels 8)).setWidth 8 ^^^ s.mux.invMask →
      exec .muxTick s = .next { s with
        mux := { s.mux with state := v, tickId := s.mux.id }
        pins := { s.pins with latch := .out true, clk := .out true }
        evq := s.evq ++ (List.finRange 8).flatMap fun i =>
          if v.getLsbD i.val = s.mux.state.getLsbD i.val ∨ s.mux.id[i] = 0 then []
          else if v.getLsbD i.val then [⟨.keyDown, s.mux.id[i]⟩, ⟨.keyDown, 0⟩]
          else [⟨.keyUp, s.mux.id[i]⟩, ⟨.keyUp, 0⟩]
        ptrace := s.ptrace ++ readRecords (s.env.levels 8)
        env := s.env.afterLevels 8 }) ∧
    (s.mux.constructed = false ∨ s.mux.enabled = false → exec .muxTick s = .next s)

/-- The edge machine's table, row by row, and one tick's events as the rows' concatenation (40_scanner.md R122). -/
def Obligations.EdgeTableHolds : Prop :=
  (∀ b : ButtonId, b ≠ 0 →
    edgeEvents b false false = [] ∧ edgeEvents b false true = [⟨.keyDown, b⟩, ⟨.keyDown, 0⟩] ∧
    edgeEvents b true false = [⟨.keyUp, b⟩, ⟨.keyUp, 0⟩] ∧ edgeEvents b true true = []) ∧
  (∀ stored sample : Bool, edgeEvents 0 stored sample = []) ∧
  (∀ s : State, s.fault = none → s.mux.constructed = true → s.mux.enabled = true → ∃ t : State,
    exec .muxTick s = .next t ∧
    t.evq = s.evq ++
      edgeEvents s.mux.id[0] (s.mux.state.getLsbD 0) (t.mux.state.getLsbD 0) ++
      edgeEvents s.mux.id[1] (s.mux.state.getLsbD 1) (t.mux.state.getLsbD 1) ++
      edgeEvents s.mux.id[2] (s.mux.state.getLsbD 2) (t.mux.state.getLsbD 2) ++
      edgeEvents s.mux.id[3] (s.mux.state.getLsbD 3) (t.mux.state.getLsbD 3) ++
      edgeEvents s.mux.id[4] (s.mux.state.getLsbD 4) (t.mux.state.getLsbD 4) ++
      edgeEvents s.mux.id[5] (s.mux.state.getLsbD 5) (t.mux.state.getLsbD 5) ++
      edgeEvents s.mux.id[6] (s.mux.state.getLsbD 6) (t.mux.state.getLsbD 6) ++
      edgeEvents s.mux.id[7] (s.mux.state.getLsbD 7) (t.mux.state.getLsbD 7) ∧
    ∀ i : Fin 8, t.mux.state.getLsbD i.val =
      (s.env.levels 8)[7 - i.val]! ^^ s.mux.invMask.getLsbD i.val)

/-- MUX_QUERY (40_scanner.md R119): the stored level of the first bit bound to the id. Which bindings count is the model's
parameter (log 17): those that stand, as R119's pseudocode has it, or those of the last tick, as 70_reset_and_hazards.md R217
has it. -/
def Obligations.MuxQueryAnswersFirstMatch : Prop :=
  ∀ id : ButtonId,
    Spells (.muxQuery id) (0x05000000 + id.toNat) .none ∧
    ∀ (s : State) (ids : Vector ButtonId 8), s.fault = none →
      (s.env.params.bindRule = .atOnce → ids = s.mux.id) →
      (s.env.params.bindRule = .atTick → ids = s.mux.tickId) → ∃ r : Word,
        exec (.muxQuery id) s = .next { s with res := r } ∧
        (s.mux.constructed = false ∨ id = 0 → r = 0) ∧
        ((∀ j : Fin 8, ids[j] ≠ id) → r = 0) ∧
        (s.mux.constructed = true → id ≠ 0 → ∀ i : Fin 8, ids[i] = id → (∀ j : Fin 8, j < i → ids[j] ≠ id) →
          r = if s.mux.state.getLsbD i.val then 1 else 0)

/-- MUX_READBITS (40_scanner.md R117): RES and the records of the read, the fault on a disabled scanner, and no command for a
count of 33 to 63. -/
def Obligations.MuxReadbitsReturnsRawBits : Prop :=
  (∀ n : Nat, n ≤ 32 →
    Spells (.muxReadbits n) (0x06000000 + n) .none ∧
    ∀ s : State, s.fault = none →
      (s.mux.constructed = true → s.mux.enabled = true →
        exec (.muxReadbits n) s = .next { s with
          res := bitsValue (s.env.levels n)
          pins := readPins s.pins n
          ptrace := s.ptrace ++ readRecords (s.env.levels n)
          env := s.env.afterLevels n } ∧
        (readRecords (s.env.levels n)).length = 2 + 3 * n) ∧
      (s.mux.constructed = false → exec (.muxReadbits n) s = .next { s with res := 0 }) ∧
      (s.mux.constructed = true → s.mux.enabled = false →
        exec (.muxReadbits n) s = .next { s with fault := some (.readDisabled, .none) })) ∧
  ∀ n : Nat, 33 ≤ n → n ≤ 63 → ∀ (p : Params) (pl : Payload) (i : Instr),
    decode p (BitVec.ofNat 32 (0x06000000 + n)) pl ≠ .ok i

/-- MUX_DISABLE (40_scanner.md R120). -/
def Obligations.MuxDisableReleasesThePins : Prop :=
  Spells .muxDisable 0x07000000 .none ∧
  ∀ s : State, s.fault = none →
    (s.mux.constructed = true → exec .muxDisable s = .next { s with
      mux := { s.mux with enabled := false }
      pins := { s.pins with latch := .neutral, clk := .neutral, data := .neutral }
      ptrace := s.ptrace ++ [.pin .latch .neutral, .pin .clk .neutral, .pin .data .neutral] }) ∧
    (s.mux.constructed = false → exec .muxDisable s = .next s)

/-- The frame of the scanner's commands: each leaves the display, the transfer engine, QTRACE and every byte of the buffer
alone, and each scanner element is written only by the commands its rule names (40_scanner.md R110, 20_memory.md R73). -/
def Obligations.ScannerCommandsFrame : Prop :=
  ∀ (i : Instr) (s t : State), i.opcode < 0x10 → exec i s = .next t →
    t.dsp = s.dsp ∧ t.xfer = s.xfer ∧ t.qtrace = s.qtrace ∧ t.refused = s.refused ∧
    (∀ a : Nat, t.dsp.screenBuf.readByte a = s.dsp.screenBuf.readByte a) ∧
    t.pins.rst = s.pins.rst ∧ t.pins.bl = s.pins.bl ∧
    t.env.params = s.env.params ∧ t.env.cmds = s.env.cmds ∧ t.env.sched = s.env.sched ∧
    (i ≠ .muxTick → t.evq = s.evq) ∧
    ((∀ id, i ≠ .muxQuery id) → (∀ n, i ≠ .muxReadbits n) → t.res = s.res) ∧
    (i ≠ .muxInit → t.mux.constructed = s.mux.constructed) ∧
    (i ≠ .muxInit → i ≠ .muxDisable → t.mux.enabled = s.mux.enabled ∧ t.pins.data = s.pins.data) ∧
    (i ≠ .muxInit → i ≠ .muxTick → t.mux.state = s.mux.state ∧ t.mux.tickId = s.mux.tickId) ∧
    (i ≠ .muxInit → (∀ slot, i ≠ .muxSetinv slot) → t.mux.invMask = s.mux.invMask) ∧
    (i ≠ .muxInit → (∀ slot id, i ≠ .muxBind slot id) → t.mux.id = s.mux.id) ∧
    ((∃ slot id, i = .muxBind slot id) ∨ (∃ slot, i = .muxSetinv slot) ∨ (∃ id, i = .muxQuery id) →
      t.pins = s.pins ∧ t.ptrace = s.ptrace ∧ t.env = s.env) ∧
    ((∀ n, i ≠ .muxReadbits n) → t.fault = s.fault)

/-! ## Bring-up -/

/-- DISP_INIT's acceptance step: MUX_INIT's effects when the scanner is not constructed, then BOOT; nothing once constructed;
MF_DSP_BUSY in BOOT (41_display.md R141, R169). The zeroed tickId is the model's own
(log 17). -/
def Obligations.DispInitEntersBoot : Prop :=
  Spells .dispInit 0x10000000 .none ∧
  ∀ s : State, s.fault = none →
    (s.dsp.constructed = true → exec .dispInit s = .next s) ∧
    (s.dsp.constructed = false → s.dsp.phase = .idle → s.mux.constructed = true →
      exec .dispInit s = .next { s with dsp := { s.dsp with phase := .boot } }) ∧
    (s.dsp.constructed = false → s.dsp.phase = .idle → s.mux.constructed = false →
      exec .dispInit s = .next { s with
        dsp := { s.dsp with phase := .boot }
        mux := ⟨true, true, 0, 0, Vector.replicate 8 0, Vector.replicate 8 0⟩
        pins := { s.pins with latch := .out true, clk := .out true, data := .inPd }
        ptrace := s.ptrace ++ [.pin .latch (.out true), .pin .clk (.out true), .pin .data .inPd] }) ∧
    (s.dsp.constructed = false → s.dsp.phase = .boot →
      exec .dispInit s = .next { s with fault := some (.dspBusy, .value 0x10) })

/-- The discovery step of DISP_INIT: a pulse on RST, a 17-bit read, then by its value a fatal, another try, or bring-up
(41_display.md R141). -/
def Obligations.DiscoveryReadsUntilAnIdentity : Prop :=
  ∀ s : State, s.fault = none → s.dsp.phase = .boot →
    (s.mux.enabled = false → dspStep s = .next { s with
      pins := { s.pins with rst := .out true }
      ptrace := s.ptrace ++ [.pin .rst (.out false), .pin .rst (.out true)]
      fault := some (.readDisabled, .none) }) ∧
    (s.mux.enabled = true →
      ∀ (code : IdCode) (r : State), code = (bitsValue (s.env.levels 17)).setWidth 17 →
      r = { s with
        pins := { s.pins with rst := .out true, latch := .out true, clk := .out true }
        ptrace := s.ptrace ++ [.pin .rst (.out false), .pin .rst (.out true)] ++ readRecords (s.env.levels 17)
        env := s.env.afterLevels 17 } →
      r.ptrace.length = s.ptrace.length + 55 ∧
      (code = 0x1FFFF → dspStep s = .next { r with fault := some (.displayNotFound, .value 0x1FFFF) }) ∧
      (code = 0 → dspStep s = .next r) ∧
      (code ≠ 0 → code ≠ 0x1FFFF → dspStep s = .next (r.bringUp code)))

/-- BringUp(v): the geometry from the configuration, RST and BL, three pin records, seven panel records, and nothing else
(41_display.md R142). Nothing is said of currPalette's sixteen values, which are UNSPECIFIED (log 9). -/
def Obligations.BringUpProgramsThePanel : Prop :=
  ∀ (s : State) (v : IdCode) (cfg : Cfg), cfg = s.env.params.config v →
    ∃ pal : Palette, s.bringUp v = { s with
      dsp := ⟨true, .idle, false, false, pal, cfg.palXOR, cfg.width, cfg.height, cfg.height, cfg.offX, cfg.offY,
        cfg.doubleSize, cfg.modeByte, cfg.timingWord, v,
        ⟨s.env.params.imgBytes cfg.width.toNat cfg.height.toNat, []⟩, none, none⟩
      pins := { s.pins with rst := .out true, bl := .out true }
      ptrace := s.ptrace ++ [.pin .rst (.out false), .pin .rst (.out true), .pin .bl (.out true)]
      qtrace := s.qtrace ++ [.spiCreate, .panelCreate, .spiSetup cfg.spiFreq cfg.spiMode,
        .spiWrite s.env.params.spiInitByte, .panelInit, .panelConfigure cfg.modeByte cfg.timingWord,
        .setWindow ⟨cfg.offX.toNat, cfg.offY.toNat, cfg.width.toNat, cfg.height.toNat⟩]
      env := { s.env with freeCount := s.env.freeCount + 16 } }

/-- After a successful DISP_INIT: full height, the main window, a clean palette, nothing pending, nothing in flight, a
constructed scanner whose bindings and mask are as before (41_display.md R143). -/
def Obligations.StateAfterBringUp : Prop :=
  ∀ s t : State, Inv s → step s = .next t → s.dsp.constructed = false → t.dsp.constructed = true →
    t.dsp.displayHeight = t.dsp.height ∧
    panelWindow t.qtrace = some ⟨t.dsp.offX.toNat, t.dsp.offY.toNat, t.dsp.width.toNat, t.dsp.height.toNat⟩ ∧
    t.dsp.newPalette = false ∧ t.dsp.lastStatus = none ∧ t.xfer.busy = false ∧ t.dsp.phase = .idle ∧
    t.mux.constructed = true ∧ t.mux = s.mux ∧ t.dsp.dispId = s.nextCode ∧ t.dsp.dispId ≠ 0 ∧ t.dsp.dispId ≠ 0x1FFFF

/-! ## Palette -/

/-- The packing function (41_display.md R144): red in bits 23 to 16, green in 15 to 8, blue in 7 to 0. -/
def Obligations.PackPlacesTheLanes : Prop :=
  ∀ r g b : Byte,
    (pack r g b).toNat = r.toNat * 2 ^ 16 + g.toNat * 2 ^ 8 + b.toNat ∧
    (pack r g b).extractLsb' 16 8 = r ∧ (pack r g b).extractLsb' 8 8 = g ∧ (pack r g b).extractLsb' 0 8 = b

/-- DISP_SETPAL in IDLE (41_display.md R145): sixteen entries and the dirty flag from 48 bytes, the fatal otherwise. -/
def Obligations.DispSetpalLoadsTheTable : Prop :=
  ∀ pal : List Byte,
    Spells (.dispSetpal pal) 0x11000000 (.palette pal) ∧
    ∀ s : State, s.fault = none → s.dsp.phase = .idle →
      (s.dsp.constructed = true → ∀ h : pal.length = 48, ∃ table : Palette,
        exec (.dispSetpal pal) s = .next { s with dsp := { s.dsp with currPalette := table, newPalette := true } } ∧
        ∀ k : Fin 16, table[k] =
          pack (pal[3 * k.val]'(by omega)) (pal[3 * k.val + 1]'(by omega)) (pal[3 * k.val + 2]'(by omega))
            ^^^ s.dsp.palXOR) ∧
      (s.dsp.constructed = true → pal.length ≠ 48 →
        exec (.dispSetpal pal) s = .next { s with fault := some (.paletteSize, .value pal.length) }) ∧
      (s.dsp.constructed = false → exec (.dispSetpal pal) s = .next s)

/-! ## Status bar -/

/-- DISP_CFGSTATUS in IDLE (41_display.md R148, R149, R150), check by check. -/
def Obligations.DispCfgstatusSetsTheBar : Prop :=
  ∀ h : Dim,
    Spells (.dispCfgstatus h) (0x12000000 + h.toNat) .none ∧
    ∀ s : State, s.fault = none → s.dsp.phase = .idle →
      (s.dsp.constructed = false → exec (.dispCfgstatus h) s = .next s) ∧
      (s.dsp.constructed = true → s.dsp.inUpdate = true ∨ s.xfer.busy = true →
        exec (.dispCfgstatus h) s =
          .next { s with fault := some (.cfgInFlight, .flight s.dsp.inUpdate s.xfer.busy) }) ∧
      (s.dsp.constructed = true → s.dsp.inUpdate = false → s.xfer.busy = false →
        (s.dsp.doubleSize = true → exec (.dispCfgstatus h) s = .next s) ∧
        (s.dsp.doubleSize = false → s.dsp.height.toNat < h.toNat →
          exec (.dispCfgstatus h) s = .next { s with fault := some (.barTooTall, .value h.toNat) }) ∧
        (s.dsp.doubleSize = false → h.toNat ≤ s.dsp.height.toNat → ∃ dh : Dim,
          dh.toNat = s.dsp.height.toNat - h.toNat ∧
          exec (.dispCfgstatus h) s = .next { s with
            dsp := { s.dsp with displayHeight := dh }
            qtrace := s.qtrace ++ [.setWindow ⟨s.dsp.offX.toNat, s.dsp.offY.toNat, s.dsp.width.toNat,
              s.dsp.height.toNat - h.toNat⟩] }))

/-- DISP_SUBMITSTATUS in IDLE (41_display.md R147): a non-empty image replaces the pending one, a null or empty one does
nothing. -/
def Obligations.DispSubmitstatusKeepsTheLast : Prop :=
  Spells (.dispSubmitstatus none) 0x13000000 .none ∧
  (∀ img : Image, Spells (.dispSubmitstatus (some img)) 0x13000001 (.image img)) ∧
  ∀ s : State, s.fault = none → s.dsp.phase = .idle →
    exec (.dispSubmitstatus none) s = .next s ∧
    ∀ img : Image,
      (s.dsp.constructed = false → exec (.dispSubmitstatus (some img)) s = .next s) ∧
      (s.dsp.constructed = true → img.w.toNat * img.h.toNat = 0 → exec (.dispSubmitstatus (some img)) s = .next s) ∧
      (s.dsp.constructed = true → img.w.toNat * img.h.toNat ≠ 0 →
        exec (.dispSubmitstatus (some img)) s = .next { s with dsp := { s.dsp with lastStatus := some img } })

/-! ## Frame submission -/

/-- DISP_SUBMITFRAME in IDLE with an image (41_display.md R162): the guard is taken, then the depth and the dimensions are
checked in that order, and an accepted frame waits in SF_W1. -/
def Obligations.DispSubmitframeValidatesTheImage : Prop :=
  ∀ img : Image,
    Spells (.dispSubmitframe (some img)) 0x14000001 (.image img) ∧
    ∀ s : State, s.fault = none → s.dsp.phase = .idle →
      (s.dsp.constructed = false → exec (.dispSubmitframe (some img)) s = .next s) ∧
      (s.dsp.inUpdate = true → exec (.dispSubmitframe (some img)) s = .next s) ∧
      (s.dsp.constructed = true → s.dsp.inUpdate = false → ∀ m : Nat, m = (if s.dsp.doubleSize then 2 else 1) →
        (img.bpp ≠ 4 → exec (.dispSubmitframe (some img)) s = .next { s with
          dsp := { s.dsp with inUpdate := true }, fault := some (.frameBpp, .value img.bpp) }) ∧
        (img.bpp = 4 → img.w.toNat * m ≠ s.dsp.width.toNat ∨ img.h.toNat * m ≠ s.dsp.displayHeight.toNat →
          exec (.dispSubmitframe (some img)) s = .next { s with
            dsp := { s.dsp with inUpdate := true }, fault := some (.frameDim, .dims img.w img.h) }) ∧
        (img.bpp = 4 → img.w.toNat * m = s.dsp.width.toNat → img.h.toNat * m = s.dsp.displayHeight.toNat →
          exec (.dispSubmitframe (some img)) s = .next { s with
            dsp := { s.dsp with inUpdate := true, cur := some img, phase := .sfW1 } }))

/-- DISP_SUBMITFRAME in IDLE without an image (41_display.md R140, R162, R164, R167): nothing before construction, dropped with
the guard set; else the pending status image is flushed, or, with none pending or in double-size mode, nothing happens. -/
def Obligations.DispSubmitframeFlushesStatus : Prop :=
  Spells (.dispSubmitframe none) 0x14000000 .none ∧
  ∀ s : State, s.fault = none → s.dsp.phase = .idle →
    (s.dsp.constructed = false → exec (.dispSubmitframe none) s = .next s) ∧
    (s.dsp.inUpdate = true → exec (.dispSubmitframe none) s = .next s) ∧
    (s.dsp.constructed = true → s.dsp.inUpdate = false →
      (s.dsp.lastStatus ≠ none → s.dsp.doubleSize = false → exec (.dispSubmitframe none) s = .next { s with
        dsp := { s.dsp with inUpdate := true, phase := .sfW2 } }) ∧
      (s.dsp.lastStatus = none ∨ s.dsp.doubleSize = true → exec (.dispSubmitframe none) s = .next s))

/-- A DISP_SUBMITFRAME presented during another one's sequence is dropped: nothing changes (41_display.md R168). -/
def Obligations.NestedFrameIsDropped : Prop :=
  ∀ (s : State) (img : Option Image), s.fault = none → s.dsp.inUpdate = true → s.dsp.phase.submitting = true →
    exec (.dispSubmitframe img) s = .next s

/-- Any other display command presented outside IDLE (41_display.md R169). -/
def Obligations.DisplayCommandsWhileBusy : Prop :=
  ∀ s : State, s.fault = none →
    (s.dsp.constructed = true → exec .dispInit s = .next s) ∧
    (s.dsp.phase = .boot →
      (s.dsp.constructed = false → exec .dispInit s = .next { s with fault := some (.dspBusy, .value 0x10) }) ∧
      (∀ img, exec (.dispSubmitframe img) s = .next { s with fault := some (.dspBusy, .value 0x14) }) ∧
      (∀ pal, exec (.dispSetpal pal) s = .next { s with fault := some (.dspBusy, .value 0x11) }) ∧
      (∀ img, exec (.dispSubmitstatus img) s = .next { s with fault := some (.dspBusy, .value 0x13) }) ∧
      (∀ h, exec (.dispCfgstatus h) s = .next { s with fault := some (.dspBusy, .value 0x12) })) ∧
    (s.dsp.phase.submitting = true →
      (∀ h, exec (.dispCfgstatus h) s =
        .next { s with fault := some (.cfgInFlight, .flight s.dsp.inUpdate s.xfer.busy) }) ∧
      (∀ pal, exec (.dispSetpal pal) s = .next { s with fault := some (.dspBusy, .value 0x11) }) ∧
      (∀ img, exec (.dispSubmitstatus img) s = .next { s with fault := some (.dspBusy, .value 0x13) }))

/-- The frame of the display commands: each leaves the transfer engine, the events, RES, RST, BL, the environment and every
byte of the buffer alone, and each display element is written only by the command its rule names (41_display.md R145, R147,
R148, R162, 20_memory.md R73). -/
def Obligations.DisplayCommandsFrame : Prop :=
  ∀ (i : Instr) (s t : State), 0x10 ≤ i.opcode → exec i s = .next t →
    t.xfer = s.xfer ∧ t.evq = s.evq ∧ t.res = s.res ∧ t.refused = s.refused ∧ t.env = s.env ∧
    (∀ a : Nat, t.dsp.screenBuf.readByte a = s.dsp.screenBuf.readByte a) ∧
    t.pins.rst = s.pins.rst ∧ t.pins.bl = s.pins.bl ∧
    (i ≠ .dispInit → t.mux = s.mux ∧ t.pins = s.pins ∧ t.ptrace = s.ptrace) ∧
    ((∀ h, i ≠ .dispCfgstatus h) → t.qtrace = s.qtrace ∧ t.dsp.displayHeight = s.dsp.displayHeight) ∧
    ((∀ pal, i ≠ .dispSetpal pal) →
      t.dsp.currPalette = s.dsp.currPalette ∧ t.dsp.newPalette = s.dsp.newPalette) ∧
    ((∀ img, i ≠ .dispSubmitstatus img) → t.dsp.lastStatus = s.dsp.lastStatus) ∧
    ((∀ img, i ≠ .dispSubmitframe img) → t.dsp.inUpdate = s.dsp.inUpdate ∧ t.dsp.cur = s.dsp.cur) ∧
    (i ≠ .dispInit → (∀ img, i ≠ .dispSubmitframe img) → t.dsp.phase = s.dsp.phase) ∧
    t.dsp.constructed = s.dsp.constructed ∧ t.dsp.palXOR = s.dsp.palXOR ∧ t.dsp.width = s.dsp.width ∧
    t.dsp.height = s.dsp.height ∧ t.dsp.offX = s.dsp.offX ∧ t.dsp.offY = s.dsp.offY ∧
    t.dsp.doubleSize = s.dsp.doubleSize ∧ t.dsp.modeByte = s.dsp.modeByte ∧
    t.dsp.timingWord = s.dsp.timingWord ∧ t.dsp.dispId = s.dsp.dispId ∧ t.dsp.screenBuf = s.dsp.screenBuf

/-! ## The sequencer's steps -/

/-- The dirty gate: a dirty palette is sent with the main frame and becomes clean, a clean one is not sent (41_display.md R146),
and step SF_W1 copies, sends and goes on to the status phase (R163, R164, R167); the bytes from IMG_BYTES(w, h) on keep their
contents (20_memory.md R62). -/
def Obligations.MainFrameStepCopiesAndSends : Prop :=
  ∀ (s : State) (img : Image) (len : Nat) (rec : SendRec),
    s.fault = none → s.dsp.phase = .sfW1 → s.xfer.busy = false → s.dsp.cur = some img →
    len = s.env.params.imgBytes img.w.toNat img.h.toNat → img.data.length = len → len ≤ s.dsp.screenBuf.size →
    rec = ⟨img.w, img.h, img.data, if s.dsp.newPalette then some s.dsp.currPalette else none⟩ →
    ∃ m : Memory, m.size = s.dsp.screenBuf.size ∧
      (∀ a : Nat, a < len → m.readByte a = img.data[a]?) ∧
      (∀ a : Nat, len ≤ a → m.readByte a = s.dsp.screenBuf.readByte a) ∧
      (s.dsp.lastStatus ≠ none → s.dsp.doubleSize = false → dspStep s = .next { s with
        dsp := { s.dsp with newPalette := false, screenBuf := m, cur := none, phase := .sfW2 }
        xfer := ⟨true, some rec⟩
        qtrace := s.qtrace ++ [.send rec] }) ∧
      (s.dsp.lastStatus = none ∨ s.dsp.doubleSize = true → dspStep s = .next { s with
        dsp := { s.dsp with newPalette := false, screenBuf := m, cur := none, phase := .idle, inUpdate := false }
        xfer := ⟨true, some rec⟩
        qtrace := s.qtrace ++ [.send rec] })

/-- Step SF_W2 on a status image that fits the band (41_display.md R165): copy, status window, send without a palette. -/
def Obligations.StatusStepCopiesAndSends : Prop :=
  ∀ (s : State) (img : Image) (len : Nat) (rec : SendRec),
    s.fault = none → s.dsp.phase = .sfW2 → s.xfer.busy = false → s.dsp.lastStatus = some img → img.bpp = 4 →
    img.w = s.dsp.width → img.h.toNat = s.dsp.height.toNat - s.dsp.displayHeight.toNat →
    len = s.env.params.imgBytes img.w.toNat img.h.toNat → img.data.length = len → len ≤ s.dsp.screenBuf.size →
    rec = ⟨img.w, img.h, img.data, none⟩ →
    ∃ m : Memory, m.size = s.dsp.screenBuf.size ∧
      (∀ a : Nat, a < len → m.readByte a = img.data[a]?) ∧
      (∀ a : Nat, len ≤ a → m.readByte a = s.dsp.screenBuf.readByte a) ∧
      dspStep s = .next { s with
        dsp := { s.dsp with screenBuf := m, phase := .sfW3 }
        xfer := ⟨true, some rec⟩
        qtrace := s.qtrace ++
          [.setWindow ⟨s.dsp.offX.toNat, s.dsp.offY.toNat + s.dsp.displayHeight.toNat, s.dsp.width.toNat,
            s.dsp.height.toNat - s.dsp.displayHeight.toNat⟩, .send rec] }

/-- Step SF_W2 on a status image that does not fit (41_display.md R165): the depth first, then the dimensions; the image stays
pending and nothing else changes. -/
def Obligations.StatusStepRejectsAMisfit : Prop :=
  ∀ (s : State) (img : Image),
    s.fault = none → s.dsp.phase = .sfW2 → s.xfer.busy = false → s.dsp.lastStatus = some img →
    (img.bpp ≠ 4 → dspStep s = .next { s with fault := some (.statusBpp, .value img.bpp) }) ∧
    (img.bpp = 4 → img.w ≠ s.dsp.width ∨ img.h.toNat ≠ s.dsp.height.toNat - s.dsp.displayHeight.toNat →
      dspStep s = .next { s with fault := some (.statusDim, .dims img.w img.h) })

/-- Step SF_W3 (41_display.md R166): the main window again, the pending image cleared, the guard released, IDLE. While a
transfer is in flight the step is not enabled (R161); that the turn then answers the same state is the model's choice (log 3). -/
def Obligations.FinishStepRestoresTheWindow : Prop :=
  ∀ s : State, s.fault = none → s.dsp.phase = .sfW3 →
    (s.xfer.busy = true → dspStep s = .next s) ∧
    (s.xfer.busy = false → dspStep s = .next { s with
      dsp := { s.dsp with lastStatus := none, inUpdate := false, phase := .idle }
      qtrace := s.qtrace ++
        [.setWindow ⟨s.dsp.offX.toNat, s.dsp.offY.toNat, s.dsp.width.toNat, s.dsp.displayHeight.toNat⟩] })

/-- Each awaiting step waits while a transfer is in flight: it is not enabled then (20_memory.md R74, 41_display.md R161). That
the turn of such a sequencer, or of an idle one, answers the same state is the model's choice (log 3). -/
def Obligations.AwaitingStepsWait : Prop :=
  ∀ s : State, s.fault = none →
    (s.xfer.busy = true → s.dsp.phase.submitting = true → dspStep s = .next s) ∧
    (s.dsp.phase = .idle → dspStep s = .next s) ∧
    (s.env.agent = .dsp → step s = dspStep s.afterTurn)

/-- The frame of the sequencer's and the transfer engine's steps: they leave the scanner's registers, the events, RES and
REFUSED alone, and only discovery touches a pin, PTRACE or the environment (20_memory.md R73). -/
def Obligations.SequencerStepsFrame : Prop :=
  ∀ s t : State,
    (dspStep s = .next t →
      t.mux = s.mux ∧ t.evq = s.evq ∧ t.res = s.res ∧ t.refused = s.refused ∧
      t.env.params = s.env.params ∧ t.env.cmds = s.env.cmds ∧ t.env.sched = s.env.sched ∧
      (s.dsp.phase ≠ .boot → t.pins = s.pins ∧ t.ptrace = s.ptrace ∧ t.env = s.env ∧
        t.dsp.displayHeight = s.dsp.displayHeight ∧ t.dsp.currPalette = s.dsp.currPalette) ∧
      (s.dsp.phase = .boot → t.xfer = s.xfer)) ∧
    (xferStep s = .next t → t = { s with xfer := t.xfer, qtrace := t.qtrace })

/-- A main frame with a fitting status image pending, each wait met by the transfer's completion: exactly one
reprogram, send, reprogram-back sequence after the main send, and nothing pending or in flight at the end
(41_display.md R170(c), R171). -/
def Obligations.FrameWithStatusBarSequence : Prop :=
  ∀ (s : State) (frame bar : Image) (main status : SendRec),
    Inv s → s.fault = none → s.dsp.phase = .sfW1 → s.xfer.busy = false → s.dsp.doubleSize = false →
    s.dsp.cur = some frame → s.dsp.lastStatus = some bar → bar.bpp = 4 → bar.w = s.dsp.width →
    bar.h.toNat = s.dsp.height.toNat - s.dsp.displayHeight.toNat →
    main = ⟨frame.w, frame.h, frame.data, if s.dsp.newPalette then some s.dsp.currPalette else none⟩ →
    status = ⟨bar.w, bar.h, bar.data, none⟩ →
    ∃ s1 s2 s3 s4 t : State,
      dspStep s = .next s1 ∧ xferStep s1 = .next s2 ∧ dspStep s2 = .next s3 ∧ xferStep s3 = .next s4 ∧
      dspStep s4 = .next t ∧
      t.qtrace = s.qtrace ++
        [.send main, .done,
          .setWindow ⟨s.dsp.offX.toNat, s.dsp.offY.toNat + s.dsp.displayHeight.toNat, s.dsp.width.toNat,
            s.dsp.height.toNat - s.dsp.displayHeight.toNat⟩,
          .send status, .done,
          .setWindow ⟨s.dsp.offX.toNat, s.dsp.offY.toNat, s.dsp.width.toNat, s.dsp.displayHeight.toNat⟩] ∧
      t.dsp.lastStatus = none ∧ t.dsp.inUpdate = false ∧ t.dsp.phase = .idle ∧ t.xfer = ⟨false, none⟩ ∧
      t.dsp.newPalette = false ∧ t.fault = none ∧
      (∀ a : Nat, a < bar.data.length → t.dsp.screenBuf.readByte a = bar.data[a]?) ∧
      (∀ a : Nat, bar.data.length ≤ a → a < frame.data.length → t.dsp.screenBuf.readByte a = frame.data[a]?)

/-! ## Queries between ticks -/

/-- Query staleness (70_reset_and_hazards.md R217, 40_scanner.md R115): a query answers from the levels the last tick stored.
Only a tick of a running scanner stores them, beside MUX_INIT's effects, which store 0; while they are 0, as from MUX_INIT to
the first tick, every query answers 0; MUX_SETINV and what the data line gives now change no answer. MUX_BIND changes no answer
before the next tick under R217's reading, and under R119's none but of the id it binds and the id it replaces; from the next
tick on, the readings agree. That the reading is a parameter is the model's choice (log 17). -/
def Obligations.QueriesAnswerFromTheLastTick : Prop :=
  (∀ s t : State, step s = .next t → t.mux.state ≠ s.mux.state →
    (s.mux.constructed = true ∧ s.mux.enabled = true ∧ (s.env.agent = .tick ∨ s.presented = some .muxTick)) ∨
    (s.mux.constructed = false ∧ t.mux.state = 0 ∧ (s.presented = some .muxInit ∨ s.presented = some .dispInit))) ∧
  ∀ (s : State) (id : ButtonId), s.fault = none →
    (s.mux.state = 0 → exec (.muxQuery id) s = .next { s with res := 0 }) ∧
    (s.mux.constructed = true → s.mux.enabled = true → ∃ t : State, exec .muxTick s = .next t ∧
      ∀ p q : Params, ∃ r : Word,
        exec (.muxQuery id) { t with env := { t.env with params := p } } =
          .next { t with res := r, env := { t.env with params := p } } ∧
        exec (.muxQuery id) { t with env := { t.env with params := q } } =
          .next { t with res := r, env := { t.env with params := q } }) ∧
    ∃ r : Word, exec (.muxQuery id) s = .next { s with res := r } ∧
      (∀ e : Env, e.params = s.env.params → exec (.muxQuery id) { s with env := e } = .next { s with env := e, res := r }) ∧
      (∀ slot : Fin 8, ∃ t : State, exec (.muxSetinv slot) s = .next t ∧
        exec (.muxQuery id) t = .next { t with res := r }) ∧
      (∀ (slot : Fin 8) (b : ButtonId),
        s.env.params.bindRule = .atTick ∨ (id ≠ b ∧ id ≠ s.mux.id[slot]) → ∃ t : State,
          exec (.muxBind slot b) s = .next t ∧ exec (.muxQuery id) t = .next { t with res := r })
end

