-- ==== Sys2Proof/Laws/Config.lean ====
section
/-! SUPPORT. `IMG_BYTES` as a table has the laws of 00_scope.md R8, and every function with those laws has a table. -/

namespace Sys2Proof

theorem ImgStep.at_mono (t : ImgStep) {w w' h h' : Nat} (hw : w ≤ w') (hh : h ≤ h') : t.at w h ≤ t.at w' h' := by
  unfold ImgStep.at
  split_ifs <;> omega

theorem imgBytesOf_mono (ts : List ImgStep) {w w' h h' : Nat} (hw : w ≤ w') (hh : h ≤ h') :
    imgBytesOf ts w h ≤ imgBytesOf ts w' h' := by
  induction ts with
  | nil => exact le_rfl
  | cons t rest ih => exact max_le_max (t.at_mono hw hh) ih

theorem Params.imgBytes_mono (p : Params) {w w' h h' : Nat} (hw : w ≤ w') (hh : h ≤ h') :
    p.imgBytes w h ≤ p.imgBytes w' h' := imgBytesOf_mono _ hw hh

theorem imgBytesOf_zero (ts : List ImgStep) {w h : Nat} (hz : w = 0 ∨ h = 0) : imgBytesOf ts w h = 0 := by
  induction ts with
  | nil => rfl
  | cons t rest ih =>
    have ht : t.at w h = 0 := by unfold ImgStep.at; split_ifs <;> omega
    rw [imgBytesOf, ih, ht, max_self]

@[simp] theorem Params.imgBytes_zero_left (p : Params) (h : Nat) : p.imgBytes 0 h = 0 := imgBytesOf_zero _ (.inl rfl)

@[simp] theorem Params.imgBytes_zero_right (p : Params) (w : Nat) : p.imgBytes w 0 = 0 := imgBytesOf_zero _ (.inr rfl)

theorem le_imgBytesOf {ts : List ImgStep} {t : ImgStep} (ht : t ∈ ts) (w h : Nat) : t.at w h ≤ imgBytesOf ts w h := by
  induction ts with
  | nil => cases ht
  | cons u rest ih =>
    rcases List.mem_cons.1 ht with rfl | ht
    · exact le_max_left _ _
    · exact le_trans (ih ht) (le_max_right _ _)

theorem imgBytesOf_le {ts : List ImgStep} {w h n : Nat} (hn : ∀ t ∈ ts, t.at w h ≤ n) : imgBytesOf ts w h ≤ n := by
  induction ts with
  | nil => exact Nat.zero_le _
  | cons t rest ih =>
    exact max_le (hn t (by simp)) (ih fun u hu => hn u (by simp [hu]))

/-- No generality is lost by the table: it can give any monotone function that is 0 on a zero side, on all sizes below a bound. -/
theorem exists_imgSteps (f : Nat → Nat → Nat) (bound : Nat)
    (mono : ∀ w w' h h', w ≤ w' → h ≤ h' → f w h ≤ f w' h') (zero : ∀ n, f 0 n = 0 ∧ f n 0 = 0) :
    ∃ ts, ∀ w h, w < bound → h < bound → imgBytesOf ts w h = f w h := by
  refine ⟨(List.range bound).flatMap fun w => (List.range bound).map fun h => ⟨w, h, f w h⟩, fun w h hw hh => ?_⟩
  refine le_antisymm (imgBytesOf_le fun t ht => ?_) ?_
  · simp only [List.mem_flatMap, List.mem_map, List.mem_range] at ht
    obtain ⟨w0, -, h0, -, rfl⟩ := ht
    unfold ImgStep.at
    split_ifs with hc
    · exact mono _ _ _ _ hc.2.1 hc.2.2.2
    · exact Nat.zero_le _
  · rcases Nat.eq_zero_or_pos w with rfl | hw0
    · rw [(zero h).1]; exact Nat.zero_le _
    rcases Nat.eq_zero_or_pos h with rfl | hh0
    · rw [(zero w).2]; exact Nat.zero_le _
    have ht : (⟨w, h, f w h⟩ : ImgStep) ∈
        (List.range bound).flatMap fun w => (List.range bound).map fun h => (⟨w, h, f w h⟩ : ImgStep) := by
      simp only [List.mem_flatMap, List.mem_map, List.mem_range]
      exact ⟨w, hw, h, hh, rfl⟩
    simpa [ImgStep.at, hw0, hh0] using le_imgBytesOf ht w h

end Sys2Proof
end

