-- ==== Sys2Proof/Laws/Decode.lean ====
section
/-! SUPPORT. The bits of a field, and where an encoded command's opcode and operand fields stand. -/

namespace Sys2Proof

/-- A field holds the word's bits from hi down to lo, and nothing above them. -/
theorem field_testBit (w : Word) (hi lo j : Nat) :
    (field w hi lo).testBit j = (decide (j < hi + 1 - lo) && w.getLsbD (lo + j)) := by
  rw [field, Nat.testBit_mod_two_pow, Nat.testBit_div_two_pow, Nat.add_comm j lo]
  rfl

theorem field_lt (w : Word) (hi lo : Nat) : field w hi lo < 2 ^ (hi + 1 - lo) :=
  Nat.mod_lt _ (Nat.two_pow_pos _)

/-- A reserved field is 0 exactly when every bit of it is. -/
theorem field_eq_zero_iff (w : Word) (hi lo : Nat) :
    field w hi lo = 0 ↔ ∀ k, lo ≤ k → k ≤ hi → w.getLsbD k = false := by
  constructor
  · intro h k hlo hhi
    have := field_testBit w hi lo (k - lo)
    rw [h, Nat.zero_testBit, show lo + (k - lo) = k by omega] at this
    simpa [show k - lo < hi + 1 - lo by omega] using this.symm
  · intro h
    refine Nat.eq_of_testBit_eq fun j => ?_
    rw [field_testBit, Nat.zero_testBit]
    by_cases hj : j < hi + 1 - lo
    · simp [hj, h (lo + j) (by omega) (by omega)]
    · simp [hj]

theorem Instr.opcode_lt (i : Instr) : i.opcode < 2 ^ 8 := by cases i <;> simp [Instr.opcode]

theorem imageFlag_lt (img : Option Image) : imageFlag img < 2 := by cases img <;> simp [imageFlag]

theorem Instr.operandBits_lt (i : Instr) : i.operandBits < 2 ^ 24 := by
  cases i with
  | muxBind slot id => simp only [Instr.operandBits]; omega
  | muxSetinv slot => simp only [Instr.operandBits]; omega
  | muxQuery id => simp only [Instr.operandBits]; omega
  | muxReadbits n => simp only [Instr.operandBits]; omega
  | dispCfgstatus h => simp only [Instr.operandBits]; omega
  | dispSubmitstatus img => exact lt_trans (imageFlag_lt img) (by decide)
  | dispSubmitframe img => exact lt_trans (imageFlag_lt img) (by decide)
  | _ => simp [Instr.operandBits]

@[simp] theorem encode_payload (i : Instr) : (encode i).payload = i.payload := rfl

/-- A command's encoding from its opcode, its operand bits and its payload. -/
theorem encode_eq {i : Instr} {w : Nat} {pl : Payload} (hw : i.opcode * 2 ^ 24 + i.operandBits = w)
    (hp : i.payload = pl) : encode i = ⟨BitVec.ofNat 32 w, pl⟩ := by
  subst hw hp
  rfl

/-- The number an encoded word is. -/
theorem encode_toNat (i : Instr) : (encode i).word.toNat = i.opcode * 2 ^ 24 + i.operandBits := by
  have ho := i.opcode_lt
  have hb := i.operandBits_lt
  simp only [encode, BitVec.toNat_ofNat]
  omega

/-- The opcode of an encoded command stands in W[31:24]. -/
theorem encode_opcode (i : Instr) : field (encode i).word 31 24 = i.opcode := by
  have ho := i.opcode_lt
  have hb := i.operandBits_lt
  rw [field, encode_toNat]
  omega

/-- A field below the opcode holds the operand bits. -/
theorem encode_field (i : Instr) (hi lo : Nat) (h : hi < 24) (hl : lo ≤ hi) :
    field (encode i).word hi lo = i.operandBits / 2 ^ lo % 2 ^ (hi + 1 - lo) := by
  rw [field, encode_toNat]
  have e : i.opcode * 2 ^ 24 = 2 ^ lo * (2 ^ (hi + 1 - lo) * (i.opcode * 2 ^ (23 - hi))) := by
    rw [show 2 ^ lo * (2 ^ (hi + 1 - lo) * (i.opcode * 2 ^ (23 - hi)))
        = i.opcode * (2 ^ lo * 2 ^ (hi + 1 - lo) * 2 ^ (23 - hi)) by ring, ← pow_add, ← pow_add]
    congr 2
    omega
  rw [e, Nat.mul_add_div (Nat.two_pow_pos _), Nat.mul_add_mod]

end Sys2Proof
end

