-- ==== Sys2Proof/Laws/State.lean ====
section
/-! SUPPORT. What each named update of the state leaves in each field, so that no proof unfolds a record update. -/

namespace Sys2Proof.Machine

variable (s : State)

@[simp] theorem State.raise_mux (code : FaultCode) (info : FaultInfo) : (s.raise code info).mux = s.mux := rfl
@[simp] theorem State.raise_pins (code : FaultCode) (info : FaultInfo) : (s.raise code info).pins = s.pins := rfl
@[simp] theorem State.raise_dsp (code : FaultCode) (info : FaultInfo) : (s.raise code info).dsp = s.dsp := rfl
@[simp] theorem State.raise_xfer (code : FaultCode) (info : FaultInfo) : (s.raise code info).xfer = s.xfer := rfl
@[simp] theorem State.raise_fault (code : FaultCode) (info : FaultInfo) : (s.raise code info).fault = some (code, info) := rfl
@[simp] theorem State.raise_refused (code : FaultCode) (info : FaultInfo) : (s.raise code info).refused = s.refused := rfl
@[simp] theorem State.raise_res (code : FaultCode) (info : FaultInfo) : (s.raise code info).res = s.res := rfl
@[simp] theorem State.raise_evq (code : FaultCode) (info : FaultInfo) : (s.raise code info).evq = s.evq := rfl
@[simp] theorem State.raise_ptrace (code : FaultCode) (info : FaultInfo) : (s.raise code info).ptrace = s.ptrace := rfl
@[simp] theorem State.raise_qtrace (code : FaultCode) (info : FaultInfo) : (s.raise code info).qtrace = s.qtrace := rfl
@[simp] theorem State.raise_env (code : FaultCode) (info : FaultInfo) : (s.raise code info).env = s.env := rfl

@[simp] theorem State.drivePin_mux (p : Pin) (m : PinMode) : (s.drivePin p m).mux = s.mux := rfl
@[simp] theorem State.drivePin_pins (p : Pin) (m : PinMode) : (s.drivePin p m).pins = s.pins.withMode p m := rfl
@[simp] theorem State.drivePin_dsp (p : Pin) (m : PinMode) : (s.drivePin p m).dsp = s.dsp := rfl
@[simp] theorem State.drivePin_xfer (p : Pin) (m : PinMode) : (s.drivePin p m).xfer = s.xfer := rfl
@[simp] theorem State.drivePin_fault (p : Pin) (m : PinMode) : (s.drivePin p m).fault = s.fault := rfl
@[simp] theorem State.drivePin_refused (p : Pin) (m : PinMode) : (s.drivePin p m).refused = s.refused := rfl
@[simp] theorem State.drivePin_res (p : Pin) (m : PinMode) : (s.drivePin p m).res = s.res := rfl
@[simp] theorem State.drivePin_evq (p : Pin) (m : PinMode) : (s.drivePin p m).evq = s.evq := rfl
@[simp] theorem State.drivePin_ptrace (p : Pin) (m : PinMode) : (s.drivePin p m).ptrace = s.ptrace ++ [.pin p m] := rfl
@[simp] theorem State.drivePin_qtrace (p : Pin) (m : PinMode) : (s.drivePin p m).qtrace = s.qtrace := rfl
@[simp] theorem State.drivePin_env (p : Pin) (m : PinMode) : (s.drivePin p m).env = s.env := rfl

@[simp] theorem State.pinWrite_mux (p : Pin) (b : Bool) : (s.pinWrite p b).mux = s.mux := rfl
@[simp] theorem State.pinWrite_pins (p : Pin) (b : Bool) : (s.pinWrite p b).pins = s.pins.withMode p (.out b) := rfl
@[simp] theorem State.pinWrite_dsp (p : Pin) (b : Bool) : (s.pinWrite p b).dsp = s.dsp := rfl
@[simp] theorem State.pinWrite_xfer (p : Pin) (b : Bool) : (s.pinWrite p b).xfer = s.xfer := rfl
@[simp] theorem State.pinWrite_fault (p : Pin) (b : Bool) : (s.pinWrite p b).fault = s.fault := rfl
@[simp] theorem State.pinWrite_refused (p : Pin) (b : Bool) : (s.pinWrite p b).refused = s.refused := rfl
@[simp] theorem State.pinWrite_res (p : Pin) (b : Bool) : (s.pinWrite p b).res = s.res := rfl
@[simp] theorem State.pinWrite_evq (p : Pin) (b : Bool) : (s.pinWrite p b).evq = s.evq := rfl
@[simp] theorem State.pinWrite_ptrace (p : Pin) (b : Bool) : (s.pinWrite p b).ptrace = s.ptrace ++ [.pin p (.out b)] := rfl
@[simp] theorem State.pinWrite_qtrace (p : Pin) (b : Bool) : (s.pinWrite p b).qtrace = s.qtrace := rfl
@[simp] theorem State.pinWrite_env (p : Pin) (b : Bool) : (s.pinWrite p b).env = s.env := rfl

@[simp] theorem State.pinInput_mux (p : Pin) : (s.pinInput p).mux = s.mux := rfl
@[simp] theorem State.pinInput_pins (p : Pin) : (s.pinInput p).pins = s.pins.withMode p .inPd := rfl
@[simp] theorem State.pinInput_dsp (p : Pin) : (s.pinInput p).dsp = s.dsp := rfl
@[simp] theorem State.pinInput_xfer (p : Pin) : (s.pinInput p).xfer = s.xfer := rfl
@[simp] theorem State.pinInput_fault (p : Pin) : (s.pinInput p).fault = s.fault := rfl
@[simp] theorem State.pinInput_refused (p : Pin) : (s.pinInput p).refused = s.refused := rfl
@[simp] theorem State.pinInput_res (p : Pin) : (s.pinInput p).res = s.res := rfl
@[simp] theorem State.pinInput_evq (p : Pin) : (s.pinInput p).evq = s.evq := rfl
@[simp] theorem State.pinInput_ptrace (p : Pin) : (s.pinInput p).ptrace = s.ptrace ++ [.pin p .inPd] := rfl
@[simp] theorem State.pinInput_qtrace (p : Pin) : (s.pinInput p).qtrace = s.qtrace := rfl
@[simp] theorem State.pinInput_env (p : Pin) : (s.pinInput p).env = s.env := rfl

@[simp] theorem State.pinRelease_mux (p : Pin) : (s.pinRelease p).mux = s.mux := rfl
@[simp] theorem State.pinRelease_pins (p : Pin) : (s.pinRelease p).pins = s.pins.withMode p .neutral := rfl
@[simp] theorem State.pinRelease_dsp (p : Pin) : (s.pinRelease p).dsp = s.dsp := rfl
@[simp] theorem State.pinRelease_xfer (p : Pin) : (s.pinRelease p).xfer = s.xfer := rfl
@[simp] theorem State.pinRelease_fault (p : Pin) : (s.pinRelease p).fault = s.fault := rfl
@[simp] theorem State.pinRelease_refused (p : Pin) : (s.pinRelease p).refused = s.refused := rfl
@[simp] theorem State.pinRelease_res (p : Pin) : (s.pinRelease p).res = s.res := rfl
@[simp] theorem State.pinRelease_evq (p : Pin) : (s.pinRelease p).evq = s.evq := rfl
@[simp] theorem State.pinRelease_ptrace (p : Pin) : (s.pinRelease p).ptrace = s.ptrace ++ [.pin p .neutral] := rfl
@[simp] theorem State.pinRelease_qtrace (p : Pin) : (s.pinRelease p).qtrace = s.qtrace := rfl
@[simp] theorem State.pinRelease_env (p : Pin) : (s.pinRelease p).env = s.env := rfl

@[simp] theorem State.emit_mux (es : List Event) : (s.emit es).mux = s.mux := rfl
@[simp] theorem State.emit_pins (es : List Event) : (s.emit es).pins = s.pins := rfl
@[simp] theorem State.emit_dsp (es : List Event) : (s.emit es).dsp = s.dsp := rfl
@[simp] theorem State.emit_xfer (es : List Event) : (s.emit es).xfer = s.xfer := rfl
@[simp] theorem State.emit_fault (es : List Event) : (s.emit es).fault = s.fault := rfl
@[simp] theorem State.emit_refused (es : List Event) : (s.emit es).refused = s.refused := rfl
@[simp] theorem State.emit_res (es : List Event) : (s.emit es).res = s.res := rfl
@[simp] theorem State.emit_evq (es : List Event) : (s.emit es).evq = s.evq ++ es := rfl
@[simp] theorem State.emit_ptrace (es : List Event) : (s.emit es).ptrace = s.ptrace := rfl
@[simp] theorem State.emit_qtrace (es : List Event) : (s.emit es).qtrace = s.qtrace := rfl
@[simp] theorem State.emit_env (es : List Event) : (s.emit es).env = s.env := rfl

@[simp] theorem State.panel_mux (r : PanelRec) : (s.panel r).mux = s.mux := rfl
@[simp] theorem State.panel_pins (r : PanelRec) : (s.panel r).pins = s.pins := rfl
@[simp] theorem State.panel_dsp (r : PanelRec) : (s.panel r).dsp = s.dsp := rfl
@[simp] theorem State.panel_xfer (r : PanelRec) : (s.panel r).xfer = s.xfer := rfl
@[simp] theorem State.panel_fault (r : PanelRec) : (s.panel r).fault = s.fault := rfl
@[simp] theorem State.panel_refused (r : PanelRec) : (s.panel r).refused = s.refused := rfl
@[simp] theorem State.panel_res (r : PanelRec) : (s.panel r).res = s.res := rfl
@[simp] theorem State.panel_evq (r : PanelRec) : (s.panel r).evq = s.evq := rfl
@[simp] theorem State.panel_ptrace (r : PanelRec) : (s.panel r).ptrace = s.ptrace := rfl
@[simp] theorem State.panel_qtrace (r : PanelRec) : (s.panel r).qtrace = s.qtrace ++ [r] := rfl
@[simp] theorem State.panel_env (r : PanelRec) : (s.panel r).env = s.env := rfl

@[simp] theorem State.refuse_mux : (s.refuse).mux = s.mux := rfl
@[simp] theorem State.refuse_pins : (s.refuse).pins = s.pins := rfl
@[simp] theorem State.refuse_dsp : (s.refuse).dsp = s.dsp := rfl
@[simp] theorem State.refuse_xfer : (s.refuse).xfer = s.xfer := rfl
@[simp] theorem State.refuse_fault : (s.refuse).fault = s.fault := rfl
@[simp] theorem State.refuse_refused : (s.refuse).refused = true := rfl
@[simp] theorem State.refuse_res : (s.refuse).res = s.res := rfl
@[simp] theorem State.refuse_evq : (s.refuse).evq = s.evq := rfl
@[simp] theorem State.refuse_ptrace : (s.refuse).ptrace = s.ptrace := rfl
@[simp] theorem State.refuse_qtrace : (s.refuse).qtrace = s.qtrace := rfl
@[simp] theorem State.refuse_env : (s.refuse).env = s.env := rfl

@[simp] theorem State.afterTurn_mux : (s.afterTurn).mux = s.mux := rfl
@[simp] theorem State.afterTurn_pins : (s.afterTurn).pins = s.pins := rfl
@[simp] theorem State.afterTurn_dsp : (s.afterTurn).dsp = s.dsp := rfl
@[simp] theorem State.afterTurn_xfer : (s.afterTurn).xfer = s.xfer := rfl
@[simp] theorem State.afterTurn_fault : (s.afterTurn).fault = s.fault := rfl
@[simp] theorem State.afterTurn_refused : (s.afterTurn).refused = s.refused := rfl
@[simp] theorem State.afterTurn_res : (s.afterTurn).res = s.res := rfl
@[simp] theorem State.afterTurn_evq : (s.afterTurn).evq = s.evq := rfl
@[simp] theorem State.afterTurn_ptrace : (s.afterTurn).ptrace = s.ptrace := rfl
@[simp] theorem State.afterTurn_qtrace : (s.afterTurn).qtrace = s.qtrace := rfl
@[simp] theorem State.afterTurn_env : (s.afterTurn).env = s.env.afterTurn := rfl

@[simp] theorem State.takeCommand_mux : (s.takeCommand).mux = s.mux := rfl
@[simp] theorem State.takeCommand_pins : (s.takeCommand).pins = s.pins := rfl
@[simp] theorem State.takeCommand_dsp : (s.takeCommand).dsp = s.dsp := rfl
@[simp] theorem State.takeCommand_xfer : (s.takeCommand).xfer = s.xfer := rfl
@[simp] theorem State.takeCommand_fault : (s.takeCommand).fault = s.fault := rfl
@[simp] theorem State.takeCommand_refused : (s.takeCommand).refused = s.refused := rfl
@[simp] theorem State.takeCommand_res : (s.takeCommand).res = s.res := rfl
@[simp] theorem State.takeCommand_evq : (s.takeCommand).evq = s.evq := rfl
@[simp] theorem State.takeCommand_ptrace : (s.takeCommand).ptrace = s.ptrace := rfl
@[simp] theorem State.takeCommand_qtrace : (s.takeCommand).qtrace = s.qtrace := rfl
@[simp] theorem State.takeCommand_env : (s.takeCommand).env = { s.env with cmds := s.env.cmds.tail } := rfl

@[simp] theorem State.xferStart_mux (r : SendRec) : (s.xferStart r).mux = s.mux := rfl
@[simp] theorem State.xferStart_pins (r : SendRec) : (s.xferStart r).pins = s.pins := rfl
@[simp] theorem State.xferStart_dsp (r : SendRec) : (s.xferStart r).dsp = s.dsp := rfl
@[simp] theorem State.xferStart_xfer (r : SendRec) : (s.xferStart r).xfer = { busy := true, record := some r } := rfl
@[simp] theorem State.xferStart_fault (r : SendRec) : (s.xferStart r).fault = s.fault := rfl
@[simp] theorem State.xferStart_refused (r : SendRec) : (s.xferStart r).refused = s.refused := rfl
@[simp] theorem State.xferStart_res (r : SendRec) : (s.xferStart r).res = s.res := rfl
@[simp] theorem State.xferStart_evq (r : SendRec) : (s.xferStart r).evq = s.evq := rfl
@[simp] theorem State.xferStart_ptrace (r : SendRec) : (s.xferStart r).ptrace = s.ptrace := rfl
@[simp] theorem State.xferStart_qtrace (r : SendRec) : (s.xferStart r).qtrace = s.qtrace ++ [.send r] := rfl
@[simp] theorem State.xferStart_env (r : SendRec) : (s.xferStart r).env = s.env := rfl

@[simp] theorem State.finish_mux : (s.finish).mux = s.mux := rfl
@[simp] theorem State.finish_pins : (s.finish).pins = s.pins := rfl
@[simp] theorem State.finish_dsp : (s.finish).dsp = { s.dsp with inUpdate := false, phase := .idle } := rfl
@[simp] theorem State.finish_xfer : (s.finish).xfer = s.xfer := rfl
@[simp] theorem State.finish_fault : (s.finish).fault = s.fault := rfl
@[simp] theorem State.finish_refused : (s.finish).refused = s.refused := rfl
@[simp] theorem State.finish_res : (s.finish).res = s.res := rfl
@[simp] theorem State.finish_evq : (s.finish).evq = s.evq := rfl
@[simp] theorem State.finish_ptrace : (s.finish).ptrace = s.ptrace := rfl
@[simp] theorem State.finish_qtrace : (s.finish).qtrace = s.qtrace := rfl
@[simp] theorem State.finish_env : (s.finish).env = s.env := rfl

@[simp] theorem State.storeSample_mux (raw : BitVec 8) : (s.storeSample raw).mux =
    { s.mux with state := raw ^^^ s.mux.invMask, tickId := s.mux.id } := rfl
@[simp] theorem State.storeSample_pins (raw : BitVec 8) : (s.storeSample raw).pins = s.pins := rfl
@[simp] theorem State.storeSample_dsp (raw : BitVec 8) : (s.storeSample raw).dsp = s.dsp := rfl
@[simp] theorem State.storeSample_xfer (raw : BitVec 8) : (s.storeSample raw).xfer = s.xfer := rfl
@[simp] theorem State.storeSample_fault (raw : BitVec 8) : (s.storeSample raw).fault = s.fault := rfl
@[simp] theorem State.storeSample_refused (raw : BitVec 8) : (s.storeSample raw).refused = s.refused := rfl
@[simp] theorem State.storeSample_res (raw : BitVec 8) : (s.storeSample raw).res = s.res := rfl
@[simp] theorem State.storeSample_evq (raw : BitVec 8) : (s.storeSample raw).evq = s.evq ++ tickEvents s.mux.id s.mux.state (raw ^^^ s.mux.invMask) := rfl
@[simp] theorem State.storeSample_ptrace (raw : BitVec 8) : (s.storeSample raw).ptrace = s.ptrace := rfl
@[simp] theorem State.storeSample_qtrace (raw : BitVec 8) : (s.storeSample raw).qtrace = s.qtrace := rfl
@[simp] theorem State.storeSample_env (raw : BitVec 8) : (s.storeSample raw).env = s.env := rfl

@[simp] theorem State.constructMux_mux : (s.constructMux).mux =
    { constructed := true, enabled := true, state := 0, invMask := 0, id := Vector.replicate 8 0, tickId := Vector.replicate 8 0 } := rfl
@[simp] theorem State.constructMux_pins : (s.constructMux).pins = { s.pins with latch := .out true, clk := .out true, data := .inPd } := rfl
@[simp] theorem State.constructMux_dsp : (s.constructMux).dsp = s.dsp := rfl
@[simp] theorem State.constructMux_xfer : (s.constructMux).xfer = s.xfer := rfl
@[simp] theorem State.constructMux_fault : (s.constructMux).fault = s.fault := rfl
@[simp] theorem State.constructMux_refused : (s.constructMux).refused = s.refused := rfl
@[simp] theorem State.constructMux_res : (s.constructMux).res = s.res := rfl
@[simp] theorem State.constructMux_evq : (s.constructMux).evq = s.evq := rfl
@[simp] theorem State.constructMux_ptrace : (s.constructMux).ptrace = s.ptrace ++ [.pin .latch (.out true)] ++ [.pin .clk (.out true)] ++ [.pin .data .inPd] := rfl
@[simp] theorem State.constructMux_qtrace : (s.constructMux).qtrace = s.qtrace := rfl
@[simp] theorem State.constructMux_env : (s.constructMux).env = s.env := rfl

@[simp] theorem State.setBar_mux (h : Dim) : (s.setBar h).mux = s.mux := rfl
@[simp] theorem State.setBar_pins (h : Dim) : (s.setBar h).pins = s.pins := rfl
@[simp] theorem State.setBar_dsp (h : Dim) : (s.setBar h).dsp = { s.dsp with displayHeight := s.dsp.height - h } := rfl
@[simp] theorem State.setBar_xfer (h : Dim) : (s.setBar h).xfer = s.xfer := rfl
@[simp] theorem State.setBar_fault (h : Dim) : (s.setBar h).fault = s.fault := rfl
@[simp] theorem State.setBar_refused (h : Dim) : (s.setBar h).refused = s.refused := rfl
@[simp] theorem State.setBar_res (h : Dim) : (s.setBar h).res = s.res := rfl
@[simp] theorem State.setBar_evq (h : Dim) : (s.setBar h).evq = s.evq := rfl
@[simp] theorem State.setBar_ptrace (h : Dim) : (s.setBar h).ptrace = s.ptrace := rfl
@[simp] theorem State.setBar_qtrace (h : Dim) : (s.setBar h).qtrace = s.qtrace ++ [.setWindow (Dsp.mainWindow { s.dsp with displayHeight := s.dsp.height - h })] := rfl
@[simp] theorem State.setBar_env (h : Dim) : (s.setBar h).env = s.env := rfl

@[simp] theorem Pins.withMode_mode (pins : Pins) (p q : Pin) (m : PinMode) :
    (pins.withMode p m).mode q = if q = p then m else pins.mode q := by
  cases p <;> cases q <;> rfl

end Sys2Proof.Machine
end

