-- ==== Sys2Proof/Laws/Memory.lean ====
section
/-! SUPPORT. The staging buffer: every operation keeps the canonical form, a read after a write gives the bytes written, and a
write leaves every other byte alone. -/

namespace Sys2Proof.Machine

theorem lookup_cell (x : Nat) (c : Host.Cell) (rest : List Host.Cell) :
    List.lookup x (c :: rest) = if x = c.1 then some c.2 else rest.lookup x := by
  rw [List.lookup_cons]
  split
  · rename_i h; simp [eq_of_beq h]
  · rename_i h; simp [ne_of_beq_false h]

theorem lookup_insertCell (a : Nat) (b : Byte) (cs : List Host.Cell) (x : Nat) :
    (insertCell a b cs).lookup x = if x = a then some b else cs.lookup x := by
  induction cs with
  | nil => simp [insertCell, lookup_cell]
  | cons c rest ih =>
    unfold insertCell
    split_ifs with h1 h2 h3 h4 <;> simp_all [lookup_cell]

theorem insertCell_keys (a : Nat) (b : Byte) (cs : List Host.Cell) (c : Host.Cell)
    (h : c ∈ insertCell a b cs) : c = (a, b) ∨ c ∈ cs := by
  induction cs with
  | nil => simpa [insertCell] using h
  | cons d rest ih =>
    unfold insertCell at h
    split_ifs at h
    · simpa using h
    · simp only [List.mem_cons] at h ⊢; tauto
    · simp only [List.mem_cons] at h ⊢
      rcases h with h | h
      · exact .inr (.inl h)
      · exact (ih h).imp_right .inr

theorem insertCell_rising (a : Nat) (b : Byte) (cs : List Host.Cell)
    (h : cs.Pairwise fun x y => x.1 < y.1) : (insertCell a b cs).Pairwise fun x y => x.1 < y.1 := by
  induction cs with
  | nil => simp [insertCell]
  | cons d rest ih =>
    obtain ⟨hd, hr⟩ := List.pairwise_cons.1 h
    unfold insertCell
    split_ifs with h1 h2
    · refine List.pairwise_cons.2 ⟨fun x hx => ?_, h⟩
      rcases List.mem_cons.1 hx with rfl | hx
      · exact h1
      · exact lt_trans h1 (hd x hx)
    · exact List.pairwise_cons.2 ⟨fun x hx => by simpa [h2] using hd x hx, hr⟩
    · refine List.pairwise_cons.2 ⟨fun x hx => ?_, ih hr⟩
      rcases insertCell_keys a b rest x hx with rfl | hx
      · exact lt_of_le_of_ne (Nat.le_of_not_lt h1) (Ne.symm h2)
      · exact hd x hx

theorem insertCells_rising (a : Nat) (bytes : List Byte) (cs : List Host.Cell)
    (h : cs.Pairwise fun x y => x.1 < y.1) : (insertCells a bytes cs).Pairwise fun x y => x.1 < y.1 := by
  induction bytes generalizing a cs with
  | nil => exact h
  | cons b bs ih => exact ih (a + 1) _ (insertCell_rising a b cs h)

theorem insertCells_keys (a : Nat) (bytes : List Byte) (cs : List Host.Cell) (c : Host.Cell)
    (h : c ∈ insertCells a bytes cs) : c.1 < a + bytes.length ∨ c ∈ cs := by
  induction bytes generalizing a cs with
  | nil => exact .inr h
  | cons b bs ih =>
    rcases ih (a + 1) _ h with h | h
    · exact .inl (by simp only [List.length_cons]; omega)
    · rcases insertCell_keys a b cs c h with rfl | h
      · exact .inl (by simp)
      · exact .inr h

theorem lookup_insertCells (a : Nat) (bytes : List Byte) (cs : List Host.Cell) (x : Nat) :
    (insertCells a bytes cs).lookup x =
      if a ≤ x ∧ x < a + bytes.length then bytes[x - a]? else cs.lookup x := by
  induction bytes generalizing a cs with
  | nil => simp [insertCells]
  | cons b bs ih =>
    rw [insertCells, ih, lookup_insertCell]
    by_cases hx : x = a
    · subst hx; simp
    · by_cases hlt : a + 1 ≤ x ∧ x < a + 1 + bs.length
      · have h2 : a ≤ x ∧ x < a + (b :: bs).length := by simp only [List.length_cons]; omega
        rw [if_pos hlt, if_pos h2]
        obtain ⟨k, rfl⟩ : ∃ k, x = a + 1 + k := ⟨x - (a + 1), by omega⟩
        rw [show a + 1 + k - (a + 1) = k by omega, show a + 1 + k - a = k + 1 by omega, List.getElem?_cons_succ]
      · have h2 : ¬ (a ≤ x ∧ x < a + (b :: bs).length) := by simp only [List.length_cons]; omega
        rw [if_neg hlt, if_neg h2, if_neg hx]

/-- What a write does when it answers: its bytes lie inside the buffer, the size stays, and the cells are replaced. -/
theorem Memory.write_ok {m m' : Memory} {a n : Nat} {bytes : List Byte} (h : m.write a n bytes = .ok m') :
    bytes.length = n ∧ a + n ≤ m.size ∧ m' = { m with cells := insertCells a bytes m.cells } := by
  unfold Memory.write at h
  split at h
  · rename_i hc; exact ⟨hc.1, hc.2, by simpa using h.symm⟩
  · cases h

theorem Memory.write_wf {m m' : Memory} {a n : Nat} {bytes : List Byte} (hm : m.wf)
    (h : m.write a n bytes = .ok m') : m'.wf := by
  obtain ⟨hl, hs, rfl⟩ := Memory.write_ok h
  refine ⟨insertCells_rising a bytes m.cells hm.1, fun c hc => ?_⟩
  rcases insertCells_keys a bytes m.cells c hc with h | h
  · exact lt_of_lt_of_le (hl ▸ h) hs
  · exact hm.2 c h

/-- One byte after a write: the byte written there, or the byte that was there before. -/
theorem Memory.readByte_write {m m' : Memory} {a n : Nat} {bytes : List Byte} (h : m.write a n bytes = .ok m')
    (x : Nat) : m'.readByte x = if a ≤ x ∧ x < a + n then bytes[x - a]? else m.readByte x := by
  obtain ⟨hl, -, rfl⟩ := Memory.write_ok h
  subst hl
  exact lookup_insertCells a bytes m.cells x

theorem Memory.readBytes_of_bytes (m : Memory) (a : Nat) (bytes : List Byte)
    (h : ∀ k, (hk : k < bytes.length) → m.readByte (a + k) = some bytes[k]) :
    m.readBytes a bytes.length = some bytes := by
  induction bytes generalizing a with
  | nil => rfl
  | cons b bs ih =>
    have h0 : m.readByte a = some b := h 0 (by simp)
    have ht : m.readBytes (a + 1) bs.length = some bs :=
      ih (a + 1) fun k hk => by
        have := h (k + 1) (by simpa using hk)
        simpa [Nat.add_assoc, Nat.add_comm 1 k] using this
    simp [Memory.readBytes, h0, ht]

/-- A read of what a write just wrote gives those bytes. -/
theorem Memory.read_write_same {m m' : Memory} {a n : Nat} {bytes : List Byte} (h : m.write a n bytes = .ok m') :
    m'.read a n = .ok bytes := by
  obtain ⟨hl, hs, he⟩ := Memory.write_ok h
  have hb : m'.readBytes a n = some bytes := by
    subst hl
    refine Memory.readBytes_of_bytes m' a bytes fun k hk => ?_
    rw [Memory.readByte_write h]
    simp [hk]
  have hsz : a + n ≤ m'.size := by rw [he]; exact hs
  simp [Memory.read, hsz, hb]

/-- What staging an image does when it answers: the image's bytes are written from offset 0, and read back as they are. -/
theorem stageImage_ok {p : Params} {m m' : Memory} {img : Image} {bytes : List Byte}
    (h : stageImage p m img = .ok (m', bytes)) :
    bytes = img.data ∧ m.write 0 (p.imgBytes img.w.toNat img.h.toNat) img.data = .ok m' := by
  unfold stageImage at h
  dsimp only at h
  split at h
  · cases h
  · rename_i m1 hw
    rw [Memory.read_write_same hw] at h
    cases h
    exact ⟨rfl, hw⟩

/-- Staging answers whenever the image has its length and fits. -/
theorem stageImage_total (p : Params) (m : Memory) (img : Image)
    (hl : img.data.length = p.imgBytes img.w.toNat img.h.toNat) (hs : img.data.length ≤ m.size) :
    stageImage p m img = .ok ({ m with cells := insertCells 0 img.data m.cells }, img.data) := by
  have hw : m.write 0 (p.imgBytes img.w.toNat img.h.toNat) img.data =
      .ok { m with cells := insertCells 0 img.data m.cells } := by
    simp [Memory.write, ← hl, hs]
  simp [stageImage, hw, Memory.read_write_same hw]

end Sys2Proof.Machine
end

