-- ==== Sys2Proof/Laws/Ops.lean ====
section
/-! SUPPORT. One lemma per shared operation that says what it can do; proofs cite these instead of unfolding. -/

namespace Sys2Proof.Machine

/-! ## Running and halted -/

theorem whenRunning_running {s : State} (h : s.fault = none) (k : State → Answer) : whenRunning s k = k s := by
  simp [whenRunning, h]

theorem whenRunning_halted {s : State} {c : FaultCode × FaultInfo} (h : s.fault = some c) (k : State → Answer) :
    whenRunning s k = .fault .halted := by
  simp [whenRunning, h]

/-- A step that answers a next state ran on a block with no fault. -/
theorem whenRunning_next {s t : State} {k : State → Answer} (h : whenRunning s k = .next t) :
    s.fault = none ∧ k s = .next t := by
  unfold whenRunning at h
  split at h
  · rename_i hf; exact ⟨hf, h⟩
  · cases h

/-! ## The environment -/

@[simp] theorem Env.levels_length (e : Env) (n : Nat) : (e.levels n).length = n := by
  induction n generalizing e with
  | zero => rfl
  | succ n ih => simp [Env.levels, ih]

@[simp] theorem Env.afterLevel_params (e : Env) : e.afterLevel.params = e.params := by
  unfold Env.afterLevel; split <;> rfl

@[simp] theorem Env.afterLevel_cmds (e : Env) : e.afterLevel.cmds = e.cmds := by
  unfold Env.afterLevel; split <;> rfl

@[simp] theorem Env.afterLevel_sched (e : Env) : e.afterLevel.sched = e.sched := by
  unfold Env.afterLevel; split <;> rfl

@[simp] theorem Env.afterLevels_params (e : Env) (n : Nat) : (e.afterLevels n).params = e.params := by
  induction n generalizing e with
  | zero => rfl
  | succ n ih => simp [Env.afterLevels, ih]

@[simp] theorem Env.afterLevels_cmds (e : Env) (n : Nat) : (e.afterLevels n).cmds = e.cmds := by
  induction n generalizing e with
  | zero => rfl
  | succ n ih => simp [Env.afterLevels, ih]

@[simp] theorem Env.afterLevels_sched (e : Env) (n : Nat) : (e.afterLevels n).sched = e.sched := by
  induction n generalizing e with
  | zero => rfl
  | succ n ih => simp [Env.afterLevels, ih]

@[simp] theorem Env.afterTurn_params (e : Env) : e.afterTurn.params = e.params := by
  unfold Env.afterTurn; split <;> rfl

@[simp] theorem Env.afterTurn_cmds (e : Env) : e.afterTurn.cmds = e.cmds := by
  unfold Env.afterTurn; split <;> rfl

/-- The samples a list fixes are the ones drawn. -/
theorem Env.levels_of_samples (e : Env) (ds rest : List Bool) (h : e.samples = ds ++ rest) :
    e.levels ds.length = ds := by
  induction ds generalizing e with
  | nil => rfl
  | cons d ds ih =>
    have hl : e.level = d := by simp [Env.level, h]
    have ht : e.afterLevel.samples = ds ++ rest := by simp [Env.afterLevel, h]
    simp [Env.levels, hl, ih _ ht]

/-! ## The shift-in -/

theorem shiftLoop_eq (n : Nat) (acc : Word) (s : State) :
    shiftLoop n acc s =
      ((s.env.levels n).foldl shiftBit acc,
        { s with
          pins := if n = 0 then s.pins else { s.pins with clk := .out true }
          ptrace := s.ptrace ++ (s.env.levels n).flatMap bitRecords
          env := s.env.afterLevels n }) := by
  induction n generalizing acc s with
  | zero => simp [shiftLoop, Env.levels, Env.afterLevels]
  | succ n ih =>
    rw [shiftLoop, ih]
    rcases n with _ | n <;>
      simp [State.pulse, State.pinWrite, State.drivePin, State.pinRead, Env.levels, Env.afterLevels, Pins.withMode,
        bitRecords]

/-- ReadBits on an enabled scanner: the bits drawn, first one most significant, and the state R111 describes. -/
theorem State.readBits_enabled {s : State} (h : s.mux.enabled = true) (n : Nat) :
    s.readBits n = .ok (bitsValue (s.env.levels n), s.afterRead n) := by
  simp only [State.readBits, h, if_true, shiftLoop_eq]
  rcases n with _ | n <;>
    simp [State.pulse, State.pinWrite, State.drivePin, Pins.withMode, bitsValue, State.afterRead, readPins, readRecords]

theorem State.readBits_disabled {s : State} (h : s.mux.enabled = false) (n : Nat) :
    s.readBits n = .error (s.raise .readDisabled .none) := by
  simp [State.readBits, h]

@[simp] theorem readRecords_length (ds : List Bool) : (readRecords ds).length = 2 + 3 * ds.length := by
  simp [readRecords, bitRecords, List.length_flatMap]
  omega

@[simp] theorem State.afterRead_mux (s : State) (n : Nat) : (s.afterRead n).mux = s.mux := rfl
@[simp] theorem State.afterRead_dsp (s : State) (n : Nat) : (s.afterRead n).dsp = s.dsp := rfl
@[simp] theorem State.afterRead_xfer (s : State) (n : Nat) : (s.afterRead n).xfer = s.xfer := rfl
@[simp] theorem State.afterRead_fault (s : State) (n : Nat) : (s.afterRead n).fault = s.fault := rfl
@[simp] theorem State.afterRead_refused (s : State) (n : Nat) : (s.afterRead n).refused = s.refused := rfl
@[simp] theorem State.afterRead_res (s : State) (n : Nat) : (s.afterRead n).res = s.res := rfl
@[simp] theorem State.afterRead_evq (s : State) (n : Nat) : (s.afterRead n).evq = s.evq := rfl
@[simp] theorem State.afterRead_qtrace (s : State) (n : Nat) : (s.afterRead n).qtrace = s.qtrace := rfl
@[simp] theorem State.afterRead_pins (s : State) (n : Nat) : (s.afterRead n).pins = readPins s.pins n := rfl
@[simp] theorem State.afterRead_env (s : State) (n : Nat) : (s.afterRead n).env = s.env.afterLevels n := rfl
@[simp] theorem State.afterRead_ptrace (s : State) (n : Nat) :
    (s.afterRead n).ptrace = s.ptrace ++ readRecords (s.env.levels n) := rfl

/-! ## Events and the query -/

@[simp] theorem edgeEvents_same (id : ButtonId) (b : Bool) : edgeEvents id b b = [] := by simp [edgeEvents]

@[simp] theorem edgeEvents_unbound (old new : Bool) : edgeEvents 0 old new = [] := by simp [edgeEvents]

/-- A sample equal to the stored state emits nothing. -/
@[simp] theorem tickEvents_same (ids : Vector ButtonId 8) (v : BitVec 8) : tickEvents ids v v = [] := by
  simp [tickEvents]

/-! ## The scanner's construction and the sequencer's phases -/

theorem State.ensureMux_cases (s : State) :
    (s.mux.constructed = true ∧ s.ensureMux = s) ∨ (s.mux.constructed = false ∧ s.ensureMux = s.constructMux) := by
  unfold State.ensureMux
  cases h : s.mux.constructed <;> simp

/-- The status phase goes to SF_W2 with a pending image outside double-size mode, and finishes otherwise. -/
theorem State.statusPhase_cases (s : State) :
    (s.dsp.lastStatus.isSome = true ∧ s.dsp.doubleSize = false ∧
      s.statusPhase = { s with dsp := { s.dsp with phase := .sfW2 } }) ∨
    ((s.dsp.lastStatus = none ∨ s.dsp.doubleSize = true) ∧ s.statusPhase = s.finish) := by
  unfold State.statusPhase
  cases h1 : s.dsp.lastStatus <;> cases h2 : s.dsp.doubleSize <;> simp

/-- What bring-up leaves: the geometry, RST and BL, three pin records and seven panel records; nothing else. -/
theorem State.bringUp_eq (s : State) (v : IdCode) :
    s.bringUp v =
      { s with
        pins := { s.pins with rst := .out true, bl := .out true }
        dsp := Dsp.broughtUp s.env.params v s.env.freeCount
        ptrace := s.ptrace ++ [.pin .rst (.out false), .pin .rst (.out true), .pin .bl (.out true)]
        qtrace := s.qtrace ++
          [.spiCreate, .panelCreate,
            .spiSetup (s.env.params.config v).spiFreq (s.env.params.config v).spiMode,
            .spiWrite s.env.params.spiInitByte, .panelInit,
            .panelConfigure (s.env.params.config v).modeByte (s.env.params.config v).timingWord,
            .setWindow (Dsp.broughtUp s.env.params v s.env.freeCount).mainWindow]
        env := { s.env with freeCount := s.env.freeCount + 16 } } := by
  simp [State.bringUp, State.panel, State.pulse, State.pinWrite, State.drivePin, Pins.withMode]

/-! ## The panel's view -/

/-- The latest SET_WINDOW of a longer trace. -/
theorem panelWindow_append (tr rest : List PanelRec) :
    panelWindow (tr ++ rest) = (panelWindow rest).or (panelWindow tr) := by
  induction tr with
  | nil => cases h : panelWindow rest <;> simp [panelWindow, h]
  | cons r tr ih =>
    simp only [List.cons_append, panelWindow, ih]
    cases h1 : panelWindow rest <;> cases h2 : panelWindow tr <;> cases r <;> simp

/-- The transfer in flight after a longer trace. -/
theorem traceTransfer_append (tr rest : List PanelRec) (now : Option SendRec) :
    traceTransfer (tr ++ rest) now = (traceTransfer tr now).bind (traceTransfer rest) := by
  induction tr generalizing now with
  | nil => rfl
  | cons r tr ih => cases r <;> cases now <;> simp [traceTransfer, ih]

/-- A query answers by the bindings its rule scans. -/
theorem Mux.pressed_eq (m : Mux) (rule : BindRule) (id : ButtonId) :
    m.pressed rule id = m.levelOf (m.queryIds rule) id := by
  unfold Mux.pressed
  split
  · cases rule <;> simp_all [Mux.queryIds]
  · rfl

@[simp] theorem Mux.queryIds_atOnce (m : Mux) : m.queryIds .atOnce = m.id := rfl
@[simp] theorem Mux.queryIds_atTick (m : Mux) : m.queryIds .atTick = m.tickId := rfl

/-- Right after a tick both rules scan the same bindings. -/
theorem Mux.queryIds_of_tickId (m : Mux) (h : m.tickId = m.id) (rule : BindRule) : m.queryIds rule = m.id := by
  cases rule <;> simp [h]

/-- A binding matters to no other id than the one it writes and the one it replaces. -/
theorem firstBound_set_of_ne (ids : Vector ButtonId 8) (slot : Fin 8) (b id : ButtonId) (h : id ≠ b) (h' : id ≠ ids[slot]) :
    firstBound (ids.set slot b) id = firstBound ids id := by
  unfold firstBound
  congr 1
  funext i
  by_cases e : slot = i
  · subst e; simp_all [eq_comm]
  · have : slot.val ≠ i.val := fun x => e (Fin.ext x)
    simp [this]

end Sys2Proof.Machine
end

