-- ==== Sys2Proof/Laws/PerInstr.lean ====
section
/-! SUPPORT. Facts stated of every instruction, one lemma per constructor: where its opcode and its reserved bits stand. -/

namespace Sys2Proof.Laws.Placement

/-- The opcode of the encoded command stands in W[31:24], and W[23:16], which no format assigns (30_encoding.md R82), is 0. -/
def Statement (i : Instr) : Prop := field (encode i).word 31 24 = i.opcode ∧ field (encode i).word 23 16 = 0

theorem of_small {i : Instr} (h : i.operandBits < 2 ^ 16) : Statement i :=
  ⟨encode_opcode i, by rw [encode_field i 23 16 (by decide) (by decide)]; omega⟩

theorem muxInit : Statement .muxInit := of_small (by decide)
theorem muxBind (slot : Fin 8) (id : ButtonId) : Statement (.muxBind slot id) :=
  of_small (by simp only [Instr.operandBits]; omega)
theorem muxSetinv (slot : Fin 8) : Statement (.muxSetinv slot) := of_small (by simp only [Instr.operandBits]; omega)
theorem muxTick : Statement .muxTick := of_small (by decide)
theorem muxQuery (id : ButtonId) : Statement (.muxQuery id) := of_small (by simp only [Instr.operandBits]; omega)
theorem muxReadbits (n : Nat) : Statement (.muxReadbits n) := of_small (by simp only [Instr.operandBits]; omega)
theorem muxDisable : Statement .muxDisable := of_small (by decide)
theorem dispInit : Statement .dispInit := of_small (by decide)
theorem dispSetpal (pal : List Byte) : Statement (.dispSetpal pal) := of_small (by simp [Instr.operandBits])
theorem dispCfgstatus (h : Dim) : Statement (.dispCfgstatus h) := of_small (by simp only [Instr.operandBits]; omega)
theorem dispSubmitstatus (img : Option Image) : Statement (.dispSubmitstatus img) :=
  of_small (lt_trans (imageFlag_lt img) (by decide))
theorem dispSubmitframe (img : Option Image) : Statement (.dispSubmitframe img) :=
  of_small (lt_trans (imageFlag_lt img) (by decide))

end Sys2Proof.Laws.Placement
end

