-- ==== Sys2Proof/Laws/Step.lean ====
section
/-! SUPPORT. Everything a command, a sequencer step and a whole step can do, said once: each theorem lists the moves a next state
can come from, with their guards. -/

namespace Sys2Proof.Machine

/-- The moves of a command from a state with no fault to a next state. -/
inductive ExecMove (s : State) : Instr → State → Prop
  | initDone : s.mux.constructed = true → ExecMove s .muxInit s
  | init : s.mux.constructed = false → ExecMove s .muxInit s.constructMux
  | bindUnbuilt (slot : Fin 8) (id : ButtonId) : s.mux.constructed = false → ExecMove s (.muxBind slot id) s
  | setinvUnbuilt (slot : Fin 8) : s.mux.constructed = false → ExecMove s (.muxSetinv slot) s
  | disableUnbuilt : s.mux.constructed = false → ExecMove s .muxDisable s
  | bind (slot : Fin 8) (id : ButtonId) : s.mux.constructed = true →
      ExecMove s (.muxBind slot id) { s with mux := { s.mux with id := s.mux.id.set slot id } }
  | setinv (slot : Fin 8) : s.mux.constructed = true → ExecMove s (.muxSetinv slot)
      { s with mux := { s.mux with invMask := invertedMask s.env.params.invMode s.mux.invMask slot } }
  | tick : s.mux.constructed = true → s.mux.enabled = true →
      ExecMove s .muxTick ((s.afterRead 8).storeSample ((bitsValue (s.env.levels 8)).setWidth 8))
  | tickOff : s.mux.constructed = false ∨ s.mux.enabled = false → ExecMove s .muxTick s
  | query (id : ButtonId) (r : Word) :
      r = (if s.mux.constructed = true ∧ s.mux.pressed s.env.params.bindRule id = true then 1 else 0) →
      ExecMove s (.muxQuery id) { s with res := r }
  | readbits (n : Nat) : s.mux.constructed = true → s.mux.enabled = true →
      ExecMove s (.muxReadbits n) { s.afterRead n with res := bitsValue (s.env.levels n) }
  | readbitsOff (n : Nat) : s.mux.constructed = true → s.mux.enabled = false →
      ExecMove s (.muxReadbits n) (s.raise .readDisabled .none)
  | readbitsUnbuilt (n : Nat) : s.mux.constructed = false → ExecMove s (.muxReadbits n) { s with res := 0 }
  | disable : s.mux.constructed = true →
      ExecMove s .muxDisable { s with
        mux := { s.mux with enabled := false }
        pins := { s.pins with latch := .neutral, clk := .neutral, data := .neutral }
        ptrace := s.ptrace ++ [.pin .latch .neutral, .pin .clk .neutral, .pin .data .neutral] }
  | displayInit : s.dsp.constructed = false → s.dsp.phase = .idle →
      ExecMove s .dispInit { s.ensureMux with dsp := { s.dsp with phase := .boot } }
  | displayInitDone : s.dsp.constructed = true → ExecMove s .dispInit s
  | busy (i : Instr) : 0x10 ≤ i.opcode → s.dsp.phase ≠ .idle → ExecMove s i (s.raise .dspBusy (.value i.opcode))
  | displayUnbuilt (i : Instr) : 0x10 ≤ i.opcode → i ≠ .dispInit → s.dsp.constructed = false → s.dsp.phase ≠ .boot →
      ExecMove s i s
  | setpal (pal : List Byte) : s.dsp.constructed = true → s.dsp.phase = .idle → pal.length = 48 →
      ExecMove s (.dispSetpal pal)
        { s with dsp := { s.dsp with currPalette := loadPalette pal s.dsp.palXOR, newPalette := true } }
  | setpalSize (pal : List Byte) : s.dsp.constructed = true → s.dsp.phase = .idle → pal.length ≠ 48 →
      ExecMove s (.dispSetpal pal) (s.raise .paletteSize (.value pal.length))
  | barInFlight (h : Dim) : s.dsp.phase ≠ .boot → s.dsp.phase ≠ .idle ∨ s.dsp.inUpdate = true ∨ s.xfer.busy = true →
      ExecMove s (.dispCfgstatus h) (s.raise .cfgInFlight (.flight s.dsp.inUpdate s.xfer.busy))
  | barDouble (h : Dim) : s.dsp.constructed = true → s.dsp.doubleSize = true → ExecMove s (.dispCfgstatus h) s
  | barTooTall (h : Dim) : s.dsp.constructed = true → s.dsp.doubleSize = false → s.dsp.height.toNat < h.toNat →
      ExecMove s (.dispCfgstatus h) (s.raise .barTooTall (.value h.toNat))
  | bar (h : Dim) : s.dsp.constructed = true → s.dsp.phase = .idle → s.dsp.inUpdate = false → s.xfer.busy = false →
      s.dsp.doubleSize = false → h.toNat ≤ s.dsp.height.toNat → ExecMove s (.dispCfgstatus h) (s.setBar h)
  | statusNone : s.dsp.constructed = true → s.dsp.phase = .idle → ExecMove s (.dispSubmitstatus none) s
  | statusEmpty (img : Image) : s.dsp.constructed = true → s.dsp.phase = .idle → emptyImage img = true →
      ExecMove s (.dispSubmitstatus (some img)) s
  | status (img : Image) : s.dsp.constructed = true → s.dsp.phase = .idle → emptyImage img = false →
      ExecMove s (.dispSubmitstatus (some img)) { s with dsp := { s.dsp with lastStatus := some img } }
  | frameDropped (img : Option Image) : s.dsp.inUpdate = true → s.dsp.phase ≠ .boot → ExecMove s (.dispSubmitframe img) s
  | frameBpp (img : Image) : s.dsp.constructed = true → s.dsp.phase = .idle → s.dsp.inUpdate = false → img.bpp ≠ 4 →
      ExecMove s (.dispSubmitframe (some img))
        (State.raise { s with dsp := { s.dsp with inUpdate := true } } .frameBpp (.value img.bpp))
  | frameDim (img : Image) : s.dsp.constructed = true → s.dsp.phase = .idle → s.dsp.inUpdate = false → img.bpp = 4 →
      s.dsp.frameDims img = false →
      ExecMove s (.dispSubmitframe (some img))
        (State.raise { s with dsp := { s.dsp with inUpdate := true } } .frameDim (.dims img.w img.h))
  | frame (img : Image) : s.dsp.constructed = true → s.dsp.phase = .idle → s.dsp.inUpdate = false → img.bpp = 4 →
      s.dsp.frameDims img = true →
      ExecMove s (.dispSubmitframe (some img))
        { s with dsp := { s.dsp with inUpdate := true, cur := some img, phase := .sfW1 } }
  | flush : s.dsp.constructed = true → s.dsp.phase = .idle → s.dsp.inUpdate = false → s.dsp.lastStatus.isSome = true →
      s.dsp.doubleSize = false →
      ExecMove s (.dispSubmitframe none) { s with dsp := { s.dsp with inUpdate := true, phase := .sfW2 } }
  | flushNone : s.dsp.constructed = true → s.dsp.phase = .idle → s.dsp.inUpdate = false →
      (s.dsp.lastStatus.isSome && !s.dsp.doubleSize) = false → ExecMove s (.dispSubmitframe none) s

/-- A command that goes on ran on a block with no fault, and made one of the moves. -/
theorem exec_moves {i : Instr} {s t : State} (h : exec i s = .next t) : s.fault = none ∧ ExecMove s i t := by
  cases i <;>
    simp only [exec, execMuxInit, execMuxBind, execMuxSetinv, execMuxTick, execMuxQuery, execMuxReadbits, execMuxDisable,
      execDispInit, execDispSetpal, execDispCfgstatus, execDispSubmitstatus, execDispSubmitframe] at h <;>
    have hf := (whenRunning_next h).1 <;> replace h := (whenRunning_next h).2 <;> refine ⟨hf, ?_⟩
  case muxInit =>
    rcases s.ensureMux_cases with ⟨hc, e⟩ | ⟨hc, e⟩ <;> rw [e] at h <;> cases h
    exacts [.initDone hc, .init hc]
  case muxBind slot id =>
    split at h <;> cases h
    exacts [.bind slot id ‹_›, .bindUnbuilt slot id (by simpa using ‹¬s.mux.constructed = true›)]
  case muxSetinv slot =>
    split at h <;> cases h
    exacts [.setinv slot ‹_›, .setinvUnbuilt slot (by simpa using ‹¬s.mux.constructed = true›)]
  case muxTick =>
    split at h
    · rename_i hc
      obtain ⟨hc, he⟩ := Bool.and_eq_true_iff.1 hc
      rw [State.readBits_enabled he] at h
      cases h
      exact .tick hc he
    · cases h
      refine .tickOff ?_
      cases hc : s.mux.constructed <;> simp_all
  case muxQuery id =>
    split at h <;> cases h <;> exact .query id _ (by simp_all)
  case muxReadbits n =>
    split at h
    · cases he : s.mux.enabled
      · rw [State.readBits_disabled he] at h
        cases h
        exact .readbitsOff n ‹_› he
      · rw [State.readBits_enabled he] at h
        cases h
        exact .readbits n ‹_› he
    · cases h
      exact .readbitsUnbuilt n (by simpa using ‹¬s.mux.constructed = true›)
  case muxDisable =>
    split at h <;> cases h
    · simpa [State.pinRelease, State.drivePin, Pins.withMode] using ExecMove.disable ‹_›
    · exact .disableUnbuilt (by simpa using ‹¬s.mux.constructed = true›)
  case dispInit =>
    split at h
    · cases h; exact .displayInitDone ‹_›
    · split at h <;> cases h
      · exact .busy .dispInit (by decide) ‹_›
      · have hd : s.ensureMux.dsp = s.dsp := by rcases s.ensureMux_cases with ⟨-, e⟩ | ⟨-, e⟩ <;> rw [e]; rfl
        rw [hd]
        exact .displayInit (by simp_all) (by simp_all)
  case dispSetpal pal =>
    split at h
    · cases h; exact .busy (.dispSetpal pal) (by simp [Instr.opcode]) ‹_›
    · split at h
      · cases h; exact .displayUnbuilt _ (by simp [Instr.opcode]) (by simp) (by simp_all) (by simp_all)
      · split at h <;> cases h
        · exact .setpalSize pal (by simp_all) (by simp_all) ‹_›
        · exact .setpal pal (by simp_all) (by simp_all) (by simp_all)
  case dispCfgstatus hh =>
    split at h
    · cases h; exact .busy (.dispCfgstatus hh) (by simp [Instr.opcode]) (by simp_all)
    · split at h
      · cases h; exact .barInFlight hh ‹_› (.inl ‹_›)
      · split at h
        · cases h; exact .displayUnbuilt _ (by simp [Instr.opcode]) (by simp) (by simp_all) ‹_›
        · split at h
          · cases h; exact .barInFlight hh ‹_› (.inr (by simpa [State.inFlight] using ‹s.inFlight = true›))
          · split at h
            · cases h; exact .barDouble hh (by simp_all) ‹_›
            · split at h <;> cases h
              · exact .barTooTall hh (by simp_all) (by simp_all) ‹_›
              · have hn : s.dsp.inUpdate = false ∧ s.xfer.busy = false := by
                  simpa [State.inFlight] using ‹¬s.inFlight = true›
                exact .bar hh (by simp_all) (by simp_all) hn.1 hn.2 (by simp_all) (by omega)
  case dispSubmitstatus img =>
    split at h
    · cases h; exact .busy (.dispSubmitstatus img) (by simp [Instr.opcode]) ‹_›
    · split at h
      · cases h; exact .displayUnbuilt _ (by simp [Instr.opcode]) (by simp) (by simp_all) (by simp_all)
      · split at h
        · cases h; exact .statusNone (by simp_all) (by simp_all)
        · split at h <;> cases h
          · exact .statusEmpty _ (by simp_all) (by simp_all) ‹_›
          · exact .status _ (by simp_all) (by simp_all) (by simp_all)
  case dispSubmitframe img =>
    split at h
    · cases h; exact .busy (.dispSubmitframe img) (by simp [Instr.opcode]) (by simp_all)
    · split at h
      · cases h; exact .frameDropped img ‹_› ‹_›
      · split at h
        · cases h; exact .busy (.dispSubmitframe img) (by simp [Instr.opcode]) ‹_›
        · split at h
          · cases h; exact .displayUnbuilt _ (by simp [Instr.opcode]) (by simp) (by simp_all) ‹_›
          · have hc : s.dsp.constructed = true := by simp_all
            have hp : s.dsp.phase = .idle := by simp_all
            have hu : s.dsp.inUpdate = false := by simp_all
            cases img with
            | none =>
              rw [State.acceptFrame] at h
              generalize hs : ({ s with dsp := { s.dsp with inUpdate := true } } : State) = u at h
              rcases u.statusPhase_cases with ⟨h1, h2, e⟩ | ⟨h1, e⟩ <;> rw [e] at h <;> cases h <;> subst hs
              · exact .flush hc hp hu h1 h2
              · have e2 : State.finish { s with dsp := { s.dsp with inUpdate := true } } = s := by
                  obtain ⟨m, p, ⟨⟩, x, f, r, v, q, pt, qt, e⟩ := s
                  simp_all [State.finish]
                rw [e2]
                exact .flushNone hc hp hu (by rcases h1 with h1 | h1 <;> simp_all)
            | some img =>
              rw [State.acceptFrame] at h
              split at h
              · cases h; exact .frameBpp img hc hp hu ‹_›
              · have h4 : img.bpp = 4 := by simp_all
                split at h <;> cases h
                · exact .frameDim img hc hp hu h4 (by simpa using ‹(!Dsp.frameDims _ img) = true›)
                · exact .frame img hc hp hu h4 (by simpa using ‹¬(!Dsp.frameDims _ img) = true›)

/-- The moves of the sequencer's turn. -/
inductive DspMove (s : State) : State → Prop
  | idle : s.dsp.phase = .idle → DspMove s s
  | noRead : s.dsp.phase = .boot → s.mux.enabled = false → DspMove s ((s.pulse .rst).raise .readDisabled .none)
  | lost : s.dsp.phase = .boot → s.mux.enabled = true → (bitsValue (s.env.levels 17)).setWidth 17 = disconnected →
      DspMove s (((s.pulse .rst).afterRead 17).raise .displayNotFound (.value disconnected.toNat))
  | retry : s.dsp.phase = .boot → s.mux.enabled = true → (bitsValue (s.env.levels 17)).setWidth 17 = (0 : IdCode) →
      DspMove s ((s.pulse .rst).afterRead 17)
  | up (code : IdCode) : s.dsp.phase = .boot → s.mux.enabled = true →
      (bitsValue (s.env.levels 17)).setWidth 17 = code → code ≠ disconnected → code ≠ 0 →
      DspMove s (((s.pulse .rst).afterRead 17).bringUp code)
  | wait : s.dsp.phase.submitting = true → s.xfer.busy = true → DspMove s s
  | mainToStatus (img : Image) (m : Memory) : s.dsp.phase = .sfW1 → s.xfer.busy = false → s.dsp.cur = some img →
      s.dsp.screenBuf.write 0 (s.env.params.imgBytes img.w.toNat img.h.toNat) img.data = .ok m →
      s.dsp.lastStatus.isSome = true → s.dsp.doubleSize = false →
      DspMove s { s with
        dsp := { s.dsp with newPalette := false, screenBuf := m, cur := none, phase := .sfW2 }
        xfer := ⟨true, some ⟨img.w, img.h, img.data, s.dsp.selectedPalette⟩⟩
        qtrace := s.qtrace ++ [.send ⟨img.w, img.h, img.data, s.dsp.selectedPalette⟩] }
  | mainToEnd (img : Image) (m : Memory) : s.dsp.phase = .sfW1 → s.xfer.busy = false → s.dsp.cur = some img →
      s.dsp.screenBuf.write 0 (s.env.params.imgBytes img.w.toNat img.h.toNat) img.data = .ok m →
      s.dsp.lastStatus = none ∨ s.dsp.doubleSize = true →
      DspMove s { s with
        dsp := { s.dsp with newPalette := false, screenBuf := m, cur := none, phase := .idle, inUpdate := false }
        xfer := ⟨true, some ⟨img.w, img.h, img.data, s.dsp.selectedPalette⟩⟩
        qtrace := s.qtrace ++ [.send ⟨img.w, img.h, img.data, s.dsp.selectedPalette⟩] }
  | badDepth (img : Image) : s.dsp.phase = .sfW2 → s.xfer.busy = false → s.dsp.lastStatus = some img → img.bpp ≠ 4 →
      DspMove s (s.raise .statusBpp (.value img.bpp))
  | badDims (img : Image) : s.dsp.phase = .sfW2 → s.xfer.busy = false → s.dsp.lastStatus = some img → img.bpp = 4 →
      s.dsp.statusDims img = false → DspMove s (s.raise .statusDim (.dims img.w img.h))
  | status (img : Image) (m : Memory) : s.dsp.phase = .sfW2 → s.xfer.busy = false → s.dsp.lastStatus = some img →
      img.bpp = 4 → s.dsp.statusDims img = true →
      s.dsp.screenBuf.write 0 (s.env.params.imgBytes img.w.toNat img.h.toNat) img.data = .ok m →
      DspMove s { s with
        dsp := { s.dsp with screenBuf := m, phase := .sfW3 }
        xfer := ⟨true, some ⟨img.w, img.h, img.data, none⟩⟩
        qtrace := s.qtrace ++ [.setWindow s.dsp.statusWindow, .send ⟨img.w, img.h, img.data, none⟩] }
  | finish : s.dsp.phase = .sfW3 → s.xfer.busy = false →
      DspMove s { s with
        dsp := { s.dsp with lastStatus := none, inUpdate := false, phase := .idle }
        qtrace := s.qtrace ++ [.setWindow s.dsp.mainWindow] }

/-- A turn of the sequencer that goes on ran on a block with no fault, and made one of the moves. -/
theorem dspStep_moves {s t : State} (h : dspStep s = .next t) : s.fault = none ∧ DspMove s t := by
  obtain ⟨hf, h⟩ := whenRunning_next h
  refine ⟨hf, ?_⟩
  split at h
  case h_1 hp => cases h; exact .idle hp
  case h_2 hp =>
    unfold discoveryStep at h
    cases he : s.mux.enabled
    · rw [State.readBits_disabled (show (s.pulse .rst).mux.enabled = false from he)] at h
      cases h
      exact .noRead hp he
    · rw [State.readBits_enabled (show (s.pulse .rst).mux.enabled = true from he)] at h
      dsimp only at h
      generalize hcode : ((bitsValue ((s.pulse .rst).env.levels 17)).setWidth 17 : IdCode) = code at h
      split at h
      · rename_i hd
        subst hd
        cases h
        exact .lost hp he hcode
      · split at h <;> cases h
        · exact .retry hp he (hcode.trans ‹_›)
        · exact .up code hp he hcode ‹_› ‹_›
  case h_3 hp =>
    unfold sfW1Step at h
    split at h
    · cases h; exact .wait (by rw [hp]; rfl) ‹_›
    · split at h
      · cases h
      · split at h
        · cases h
        · rename_i img hcur _ m bytes hs
          obtain ⟨rfl, hw⟩ := stageImage_ok hs
          have hb : s.xfer.busy = false := by simp_all
          dsimp only at h
          generalize hu : ({ (({ s with dsp := _ } : State).xferStart _) with dsp := _ } : State) = u at h
          rcases u.statusPhase_cases with ⟨h1, h2, e⟩ | ⟨h1, e⟩ <;> rw [e] at h <;> cases h <;> subst hu
          · exact .mainToStatus img m hp hb hcur hw h1 h2
          · exact .mainToEnd img m hp hb hcur hw h1
  case h_4 hp =>
    unfold sfW2Step at h
    split at h
    · cases h; exact .wait (by rw [hp]; rfl) ‹_›
    · have hb : s.xfer.busy = false := by simp_all
      split at h
      · cases h
      · rename_i img hl
        split at h
        · cases h; exact .badDepth img hp hb hl ‹_›
        · have h4 : img.bpp = 4 := by simp_all
          split at h
          · cases h; exact .badDims img hp hb hl h4 (by simp_all)
          · split at h
            · cases h
            · rename_i hd _ m bytes hs
              obtain ⟨rfl, hw⟩ := stageImage_ok hs
              cases h
              simpa [State.panel, State.xferStart, Dsp.statusWindow] using
                DspMove.status img m hp hb hl h4 (by simpa using hd) hw
  case h_5 hp =>
    unfold sfW3Step at h
    split at h
    · cases h; exact .wait (by rw [hp]; rfl) ‹_›
    · cases h; exact .finish hp (by simp_all)

/-- The moves of one step: the agents' turns. -/
inductive StepMove (s : State) : State → Prop
  | nothing : StepMove s s.afterTurn
  | exec (i : Instr) (t : State) : s.presented = some i → ExecMove s.afterTurn.takeCommand i t → StepMove s t
  | refuse : s.env.agent = .host → s.env.cmds ≠ [] → s.presented = none → StepMove s s.afterTurn.takeCommand.refuse
  | tick (t : State) : s.env.agent = .tick → s.mux.constructed = true → s.mux.enabled = true →
      ExecMove s.afterTurn .muxTick t → StepMove s t
  | dsp (t : State) : s.env.agent = .dsp → DspMove s.afterTurn t → StepMove s t
  | done : s.env.agent = .xfer → s.xfer.busy = true →
      StepMove s { s.afterTurn with xfer := ⟨false, none⟩, qtrace := s.qtrace ++ [.done] }

/-- A step that goes on ran on a block with no fault, and made one of the moves. -/
theorem step_moves {s t : State} (h : step s = .next t) : s.fault = none ∧ StepMove s t := by
  unfold step at h
  cases ha : s.env.agent <;> rw [ha] at h <;> simp only [agentStep] at h
  case host =>
    unfold hostStep at h
    split at h
    · obtain ⟨hf, h⟩ := whenRunning_next h
      cases h
      exact ⟨hf, .nothing⟩
    · rename_i c rest hc
      have hc : s.env.cmds = c :: rest := by simpa using hc
      unfold present at h
      split at h
      · rename_i i hd
        obtain ⟨hf, hm⟩ := exec_moves h
        exact ⟨hf, .exec i t (by simpa [State.presented, ha, hc, Except.toOption] using congrArg Except.toOption hd) hm⟩
      · rename_i e hd
        obtain ⟨hf, h⟩ := whenRunning_next h
        cases h
        exact ⟨hf, .refuse ha (by simp [hc]) (by simpa [State.presented, ha, hc, Except.toOption] using congrArg Except.toOption hd)⟩
  case tick =>
    unfold tickStep at h
    split at h
    · rename_i hc
      obtain ⟨hf, hm⟩ := exec_moves h
      obtain ⟨hc, he⟩ := Bool.and_eq_true_iff.1 hc
      exact ⟨hf, .tick t ha hc he hm⟩
    · obtain ⟨hf, h⟩ := whenRunning_next h
      cases h
      exact ⟨hf, .nothing⟩
  case dsp =>
    obtain ⟨hf, hm⟩ := dspStep_moves h
    exact ⟨hf, .dsp t ha hm⟩
  case xfer =>
    obtain ⟨hf, h⟩ := whenRunning_next h
    split at h <;> cases h
    · exact ⟨hf, .done ha ‹_›⟩
    · exact ⟨hf, .nothing⟩

end Sys2Proof.Machine
end

