-- ==== Sys2Proof/Tests/Slice0.lean ====
section
/-! SUPPORT. Small tests, their expected results from spec/95_test_vectors.md (its row in each docstring), and for every statement
with hypotheses a state and operands that meet them. -/

namespace Sys2Proof.Tests

open Sys2Proof Sys2Proof.Machine

/-! ## The test configuration (95_test_vectors.md section 0) and small states -/

/-- `ceil(w·h / 2)` for sides up to 4. -/
def halfBytes : List ImgStep :=
  [1, 2, 3, 4].flatMap fun w => [1, 2, 3, 4].map fun h => ⟨w, h, (w * h + 1) / 2⟩

/-- TC. -/
def tc : Cfg := { width := 4, height := 4, offX := 2, offY := 1, modeByte := 0x08 }

/-- TCX: inverted palette polarity. -/
def tcx : Cfg := { tc with palXOR := 0xFFFFFF }

/-- TC2: a double-size panel. -/
def tc2 : Cfg := { tc with doubleSize := true }

def params (c : Cfg) : Params := { otherCfg := c, imgSteps := halfBytes }

/-- A block under configuration c just after a reset. -/
def blank (c : Cfg) : State :=
  State.powerOn { params := params c, cmds := [], sched := [], samples := [], freeCount := 0 }

/-- A primed scanner, with the given levels waiting on the data line. -/
def scanner (samples : List Bool) : State :=
  { (blank tc).constructMux with env := { (blank tc).env with samples := samples } }

/-- A scanner with ids 1 and 2 bound to bits 0 and 1 since before the last tick, and a stored state. -/
def bound (state mask : BitVec 8) (samples : List Bool) : State :=
  { scanner samples with mux :=
    { constructed := true, enabled := true, state := state, invMask := mask
      id := #v[1, 2, 0, 0, 0, 0, 0, 0], tickId := #v[1, 2, 0, 0, 0, 0, 0, 0] } }

/-- A display that has come up under configuration c, with a black palette. -/
def display (c : Cfg) : State :=
  let d := { Dsp.broughtUp (params c) 0xABC 0 with currPalette := Vector.replicate 16 0 }
  let s := (blank c).constructMux
  { s with
    dsp := d
    pins := { s.pins with rst := .out true, bl := .out true }
    qtrace := [.setWindow d.mainWindow] }

/-- A display in discovery, with the 17 given levels waiting. -/
def booting (code : IdCode) : State :=
  let s := (blank tc).constructMux
  { s with
    dsp := { s.dsp with phase := .boot }
    env := { s.env with samples := (List.range 17).map fun k => code.getLsbD (16 - k) } }

/-- The main image of program P3, and its status image. -/
def frame : Image := ⟨4, 4, 3, [0x10, 0x11, 0x12, 0x13, 0x14, 0x15]⟩
def bar : Image := ⟨4, 4, 1, [0xAA, 0xBB]⟩

/-- The display of program P3 after its step 3: a bar of one row, a status image pending, a frame latched in SF_W1. -/
def latched : State :=
  let s := display tc
  let d := { s.dsp with displayHeight := 3, inUpdate := true, phase := .sfW1, cur := some frame, lastStatus := some bar }
  { s with dsp := d, qtrace := [.setWindow d.mainWindow], env := { s.env with sched := [.dsp] } }

/-- A display in a given phase of a frame's sequence, with a given status image pending. -/
def inPhase (p : Phase) (img : Image) : State :=
  { latched with dsp := { latched.dsp with phase := p, cur := none, lastStatus := some img } }

/-- A state with a transfer of the status image in flight. -/
def flying (s : State) : State := s.xferStart ⟨4, 1, [0xAA, 0xBB], none⟩

/-- A state in which an agent has the next turn. -/
def turn (a : Agent) (s : State) : State := { s with env := { s.env with sched := [a] } }

/-- A state whose next turn presents a pair. -/
def presenting (w : Word) (pl : Payload) (s : State) : State := s.presentNext ⟨w, pl⟩

/-- The next state of an answer. -/
def nextState : Answer → Option State
  | .next s => some s
  | .fault _ => none
  | .refused _ => none

/-- The palette PAL16. -/
def pal16 : List Byte := (List.range 16).flatMap fun k => List.replicate 3 (BitVec.ofNat 8 (0x11 * k))

/-! ## Well-formedness: each check refuses an ill-formed term, and the decoder refuses its words -/

/-- D10: N = 33. -/
theorem test_wf_count : Instr.wf (params tc) (.muxReadbits 33) = false ∧ Instr.wf (params tc) (.muxReadbits 32) = true ∧
    decode (params tc) 0x06000021 .none = .error .countTooLarge := by decide

/-- D23: an image whose data is too short, in a frame. -/
theorem test_wf_frame : Instr.wf (params tc) (.dispSubmitframe (some ⟨4, 4, 4, List.replicate 7 0⟩)) = false ∧
    decode (params tc) 0x14000001 (.image ⟨4, 4, 4, List.replicate 7 0⟩) = .error .imageIllFormed := by decide

/-- R64: an image whose data is too long, in a status submission. -/
theorem test_wf_status : Instr.wf (params tc) (.dispSubmitstatus (some ⟨4, 4, 1, List.replicate 3 0⟩)) = false ∧
    decode (params tc) 0x13000001 (.image ⟨4, 4, 1, List.replicate 3 0⟩) = .error .imageIllFormed := by decide

/-! ## Decoding (95_test_vectors.md section 2.1) -/

/-- D1, D7, D12: format N. -/
theorem test_decode_bare : decode (params tc) 0x01000000 .none = .ok .muxInit ∧
    decode (params tc) 0x04000000 .none = .ok .muxTick ∧ decode (params tc) 0x07000000 .none = .ok .muxDisable ∧
    decode (params tc) 0x07000001 .none = .error .reservedBit := by decide

/-- D3, D4, D5, D6: formats B and S. -/
theorem test_decode_bind : decode (params tc) 0x020007FF .none = .ok (.muxBind 7 255) ∧
    decode (params tc) 0x02000B07 .none = .error .reservedBit ∧
    decode (params tc) 0x03000300 .none = .ok (.muxSetinv 3) ∧
    decode (params tc) 0x03000301 .none = .error .reservedBit := by decide

/-- D8, D9, D11: formats Q and R. -/
theorem test_decode_query : decode (params tc) 0x05000000 .none = .ok (.muxQuery 0) ∧
    decode (params tc) 0x06000020 .none = .ok (.muxReadbits 32) ∧
    decode (params tc) 0x06000040 .none = .error .reservedBit := by decide

/-- D14, D17, D18: DISP_INIT and format H. -/
theorem test_decode_display : decode (params tc) 0x10000000 .none = .ok .dispInit ∧
    decode (params tc) 0x1200FFFF .none = .ok (.dispCfgstatus 65535) ∧
    decode (params tc) 0x12010000 .none = .error .reservedBit := by decide

/-- D15, D16: the palette payload. -/
theorem test_decode_setpal :
    decode (params tc) 0x11000000 (.palette (List.replicate 47 0)) = .ok (.dispSetpal (List.replicate 47 0)) ∧
    decode (params tc) 0x11000000 .none = .error .payloadKind := by decide

/-- D19, D20, D21, D22, D24, D25: format I. -/
theorem test_decode_image : decode (params tc) 0x13000000 .none = .ok (.dispSubmitstatus none) ∧
    decode (params tc) 0x13000001 (.image bar) = .ok (.dispSubmitstatus (some bar)) ∧
    decode (params tc) 0x13000001 .none = .error .payloadKind ∧
    decode (params tc) 0x14000000 (.image bar) = .error .payloadKind ∧
    decode (params tc) 0x14000001 (.image ⟨1, 4, 4, []⟩) = .ok (.dispSubmitframe (some ⟨1, 4, 4, []⟩)) ∧
    decode (params tc) 0x14000002 .none = .error .reservedBit := by decide

/-- D26–D29: reserved opcodes. -/
theorem test_decode_reserved : decode (params tc) 0x00000000 .none = .error .reservedOpcode ∧
    decode (params tc) 0x08000000 .none = .error .reservedOpcode ∧
    decode (params tc) 0x15000000 .none = .error .reservedOpcode ∧
    decode (params tc) 0xFF000000 .none = .error .reservedOpcode := by decide

/-- A table word runs as the first command after reset. -/
theorem test_fetch_word : decodeTableWord 32 0x02000307 = some (.muxBind 3 7) ∧ decodeTableWord 32 0x14000001 ≠ none ∧
    ((nextState (step (State.reset.withFetchWord 32 0x01000000))).map fun t => t.mux.enabled) = some true := by decide

/-! ## The scanner's commands -/

/-- M1. -/
theorem test_muxInit : (nextState (exec .muxInit (blank tc))).map (fun t => (t.mux.enabled, t.ptrace)) =
    some (true, [.pin .latch (.out true), .pin .clk (.out true), .pin .data .inPd]) := by decide

/-- S3, S9: a binding is replaced, and the table is written after MUX_DISABLE too. -/
theorem test_muxBind : (nextState (exec (.muxBind 1 9)
    { bound 0 0 [] with mux := { (bound 0 0 []).mux with enabled := false } })).map (fun t => t.mux.id) =
    some #v[1, 9, 0, 0, 0, 0, 0, 0] := by decide

/-- S5, S6: set is idempotent, toggle is not. -/
theorem test_muxSetinv :
    (nextState (exec (.muxSetinv 3) (bound 0 0x08 []))).map (fun t => t.mux.invMask) = some 0x08 ∧
    (nextState (exec (.muxSetinv 3) { bound 0 0x08 [] with env :=
      { (blank tc).env with params := { params tc with invMode := .toggle } } })).map (fun t => t.mux.invMask) =
      some 0x00 := by decide

/-- T6: a release and a press in one tick, in increasing index. -/
theorem test_muxTick : (nextState (exec .muxTick
    (bound 0x01 0 [false, false, false, false, false, false, true, false]))).map (fun t => (t.mux.state, t.evq)) =
    some (0x02, [⟨.keyUp, 1⟩, ⟨.keyUp, 0⟩, ⟨.keyDown, 2⟩, ⟨.keyDown, 0⟩]) := by decide

/-- T7: an inverted idle input reads as pressed; the tick adds 26 records. -/
theorem test_muxTick_inverted : (nextState (exec .muxTick (bound 0 0x01 (List.replicate 8 false)))).map
    (fun t => (t.mux.state, t.evq, t.ptrace.length)) = some (0x01, [⟨.keyDown, 1⟩, ⟨.keyDown, 0⟩], 3 + 26) := by decide

/-- Q3: of two bits with one id the lower wins; Q6: id 0 is never bound. -/
theorem test_muxQuery : (nextState (exec (.muxQuery 5) { bound 0x02 0 [] with mux :=
      { (bound 0x02 0 []).mux with id := #v[5, 5, 0, 0, 0, 0, 0, 0] } })).map (fun t => t.res) = some 0 ∧
    (nextState (exec (.muxQuery 0) (bound 0xFF 0 []))).map (fun t => t.res) = some 0 := by decide

/-- A binding made after the tick that stored 0x08: R119's bindings answer 1, R217's 0, and both 1 after one more tick. -/
theorem test_muxQuery_bindRule :
    let ask (rule : BindRule) (ids : Vector ButtonId 8) : Option Word :=
      (nextState (exec (.muxQuery 7) { blank tc with
        mux := ⟨true, true, 0x08, 0, #v[0, 0, 0, 7, 0, 0, 0, 0], ids⟩
        env := { (blank tc).env with params := { params tc with bindRule := rule } } })).map fun t => t.res
    ask .atOnce (Vector.replicate 8 0) = some 1 ∧ ask .atTick (Vector.replicate 8 0) = some 0 ∧
    ask .atTick #v[0, 0, 0, 7, 0, 0, 0, 0] = some 1 := by decide

/-- B3: eight bits, most significant first. -/
theorem test_muxReadbits : (nextState (exec (.muxReadbits 8)
    (scanner [true, false, true, true, false, false, true, false]))).map (fun t => (t.res, t.ptrace.length)) =
    some (0xB2, 3 + 26) := by decide

/-- B8: bit 31. -/
theorem test_muxReadbits_top : (nextState (exec (.muxReadbits 32)
    (scanner (true :: List.replicate 31 false)))).map (fun t => t.res) = some 0x80000000 := by decide

/-- M3. -/
theorem test_muxDisable : (nextState (exec .muxDisable (scanner []))).map
    (fun t => (t.mux.enabled, t.pins.latch, t.pins.clk, t.pins.data)) =
    some (false, .neutral, .neutral, .neutral) := by decide

/-! ## The display's commands -/

/-- P2, step 1. -/
theorem test_dispInit : (nextState (exec .dispInit (blank tc))).map
    (fun t => (t.dsp.phase, t.mux.constructed, t.ptrace.length)) = some (.boot, true, 3) := by decide

/-- I1: discovery reads 0x00ABC and brings the display up. -/
theorem test_discovery : (nextState (dspStep (booting 0xABC))).map
    (fun t => (t.dsp.constructed, t.dsp.dispId, t.dsp.displayHeight, t.qtrace.length, t.ptrace.length)) =
    some (true, 0xABC, 4, 7, 3 + 55 + 3) := by decide

/-- L2: the polarity mask. -/
theorem test_dispSetpal : (nextState (exec (.dispSetpal (0x12 :: 0x34 :: 0x56 :: List.replicate 45 0))
    (display tcx))).map (fun t => (t.dsp.currPalette[0], t.dsp.newPalette)) = some (0xEDCBA9, true) := by decide

/-- L3. -/
theorem test_dispSetpal_ramp : (nextState (exec (.dispSetpal pal16) (display tc))).map
    (fun t => (t.dsp.currPalette[1], t.dsp.currPalette[15])) = some (0x111111, 0xFFFFFF) := by decide

/-- H4: a bar of the whole height. -/
theorem test_dispCfgstatus : (nextState (exec (.dispCfgstatus 4) (display tc))).map
    (fun t => (t.dsp.displayHeight, panelWindow t.qtrace)) = some (0, some ⟨2, 1, 4, 0⟩) := by decide

/-- H6: no effect in double-size mode, and no range fault. -/
theorem test_dispCfgstatus_double : (nextState (exec (.dispCfgstatus 9) (display tc2))).map
    (fun t => (t.dsp.displayHeight, t.fault, t.qtrace.length)) = some (4, none, 1) := by decide

/-- H10, H12. -/
theorem test_dispSubmitstatus : (nextState (exec (.dispSubmitstatus (some ⟨4, 0, 1, []⟩))
      { display tc with dsp := { (display tc).dsp with lastStatus := some bar } })).map (fun t => t.dsp.lastStatus) =
      some (some bar) ∧
    (nextState (exec (.dispSubmitstatus (some ⟨1, 9, 9, []⟩)) (display tc))).map (fun t => t.dsp.lastStatus) =
      some (some ⟨1, 9, 9, []⟩) := by decide

/-- F2: a double-size frame of half the sides is accepted. -/
theorem test_dispSubmitframe : (nextState (exec (.dispSubmitframe (some ⟨4, 2, 2, [0x5A, 0xA5]⟩)) (display tc2))).map
    (fun t => (t.dsp.phase, t.dsp.inUpdate, t.fault)) = some (.sfW1, true, none) := by decide

/-- F5: the depth is checked before the dimensions, with the guard taken. -/
theorem test_dispSubmitframe_depth : (nextState (exec (.dispSubmitframe (some ⟨8, 1, 1, []⟩)) (display tc))).map
    (fun t => (t.fault, t.dsp.inUpdate, t.dsp.phase)) = some (some (.frameBpp, .value 8), true, .idle) := by decide

/-- P3, step 4: a clean palette is not sent. -/
theorem test_mainFrameStep : (nextState (dspStep latched)).map (fun t => (t.dsp.phase, t.xfer)) =
    some (.sfW2, ⟨true, some ⟨4, 3, [0x10, 0x11, 0x12, 0x13, 0x14, 0x15], none⟩⟩) := by decide

/-- P3, step 6. -/
theorem test_statusStep : (nextState (dspStep (inPhase .sfW2 bar))).map
    (fun t => (t.dsp.phase, panelWindow t.qtrace, t.xfer.record)) =
    some (.sfW3, some ⟨2, 4, 4, 1⟩, some ⟨4, 1, [0xAA, 0xBB], none⟩) := by decide

/-! ## Witnesses: states and operands that meet the statements' hypotheses -/

theorem witness_DecodeInvertsEncode : (Instr.muxReadbits 32).wf (params tc) = true ∧
    (Instr.dispSubmitframe (some frame)).wf (params tc) = true := by decide

theorem witness_EncodeInvertsDecode : decode (params tc) 0x02000307 .none = .ok (.muxBind 3 7) := by decide

theorem witness_DecoderFollowsOpcodeMap_rows : ∀ r ∈ opcodeMap, ∃ w pl, r.matches w ∧ r.extra (params tc) w pl := by
  simp only [opcodeMap, List.forall_mem_cons]
  refine ⟨⟨0x01000000, .none, rfl, rfl⟩, ⟨0x020007FF, .none, rfl, rfl⟩, ⟨0x03000700, .none, rfl, rfl⟩,
    ⟨0x04000000, .none, rfl, rfl⟩, ⟨0x050000FF, .none, rfl, rfl⟩, ⟨0x06000020, .none, rfl, ⟨by decide, rfl⟩⟩,
    ⟨0x07000000, .none, rfl, rfl⟩, ⟨0x10000000, .none, rfl, rfl⟩,
    ⟨0x11000000, .palette [], rfl, ⟨[], rfl⟩⟩, ⟨0x1200FFFF, .none, rfl, rfl⟩,
    ⟨0x13000000, .none, rfl, .inr ⟨by decide, rfl⟩⟩,
    ⟨0x14000001, .image frame, rfl, .inl ⟨by decide, frame, rfl, by decide⟩⟩,
    fun _ h => by cases h⟩

theorem witness_DecoderFollowsOpcodeMap_decoded :
    decode (params tc) 0x13000001 (.image bar) = .ok (.dispSubmitstatus (some bar)) := by decide

theorem witness_WorkedEncodingsDecode : frame.wf (params tc) = true := by decide

theorem witness_StepRunsDecodedCommand : ∃ s : State, s.fault = none ∧ s.env.agent = .host ∧
    s.env.cmds = ⟨0x02000307, .none⟩ :: [] ∧ decode s.env.params 0x02000307 .none = .ok (.muxBind 3 7) :=
  ⟨presenting 0x02000307 .none (scanner []), by decide⟩

/-- No command is spelled by the word 0. -/
theorem witness_StepRefusesWhatSpellsNothing : ∃ s : State, s.fault = none ∧ s.env.agent = .host ∧
    s.env.cmds = ⟨0, .none⟩ :: [] ∧ ∀ i : Instr, i.wf s.env.params = true → encode i ≠ ⟨0, .none⟩ := by
  refine ⟨presenting 0 .none (scanner []), by decide, by decide, by decide, fun i _ h => ?_⟩
  have ho := encode_opcode i
  rw [h] at ho
  cases i <;> simp [field, Instr.opcode] at ho

theorem witness_TickSourceDeliversMuxTick :
    ((turn .tick (scanner [])).fault = none ∧ (turn .tick (scanner [])).env.agent = .tick ∧
      (turn .tick (scanner [])).mux.constructed = true ∧ (turn .tick (scanner [])).mux.enabled = true) ∧
    ((turn .tick (blank tc)).fault = none ∧ (turn .tick (blank tc)).env.agent = .tick ∧
      (turn .tick (blank tc)).mux.constructed = false) := by decide

theorem witness_TransferCompletes :
    ((flying (display tc)).fault = none ∧ (flying (display tc)).xfer.busy = true) ∧
    ((display tc).fault = none ∧ (display tc).xfer.busy = false) ∧
    (turn .xfer (display tc)).env.agent = .xfer := by decide

theorem witness_HaltedBlockHasNoStep : ((blank tc).raise .displayNotFound (.value 0x1FFFF)).fault ≠ none := by decide

/-- A display in IDLE with a transfer in flight meets the invariant. -/
theorem inv_flying : Inv (turn .xfer (flying (display tc))) := by
  constructor <;> first | decide | (intro _ h; cases h) | (intro h; cases h)

/-- A display with a frame latched and a status image pending meets the invariant. -/
theorem inv_latched : Inv latched := by
  constructor
  case frameLatched => exact fun _ => ⟨frame, rfl, by decide, by decide, by decide⟩
  case statusKept => intro _ h; cases h; exact ⟨by decide, by decide⟩
  case statusSent => intro h; cases h
  all_goals decide

/-- A display in discovery meets the invariant. -/
theorem inv_booting : Inv (turn .dsp (booting 0xABC)) := by
  constructor <;> first | decide | (intro _ h; cases h) | (intro h; cases h)

theorem witness_RunningBlockAlwaysSteps : Inv latched ∧ latched.fault = none := ⟨inv_latched, by decide⟩

theorem witness_EveryStepKeepsInv : ∃ t, Inv (turn .dsp (booting 0xABC)) ∧ step (turn .dsp (booting 0xABC)) = .next t :=
  ⟨_, inv_booting, rfl⟩

theorem witness_ParametersNeverChange : ∃ t, step { turn .tick (scanner []) with refused := true } = .next t ∧
    ({ turn .tick (scanner []) with refused := true } : State).refused = true := ⟨_, rfl, rfl⟩

theorem witness_ConstructionIsForLife : ∃ s t : State, step s = .next t ∧ s.mux.constructed = true ∧
    s.mux.enabled = false ∧ s.dsp.constructed = true :=
  ⟨presenting 0x01000000 .none { display tc with mux := { (display tc).mux with enabled := false } }, _, rfl, rfl, rfl, rfl⟩

theorem witness_ConfigurationReadOnlyAfterBringUp : ∃ t, Inv latched ∧ latched.dsp.constructed = true ∧
    step latched = .next t := ⟨_, inv_latched, by decide, rfl⟩

theorem witness_BufferUntouchedInFlight : ∃ t, Inv (turn .xfer (flying (display tc))) ∧
    (turn .xfer (flying (display tc))).xfer.busy = true ∧ step (turn .xfer (flying (display tc))) = .next t :=
  ⟨_, inv_flying, by decide, rfl⟩

/-- H4, as a step. -/
theorem witness_HeightChangesOnlyAtRest : ∃ t, Inv (presenting 0x12000004 .none (display tc)) ∧
    (presenting 0x12000004 .none (display tc)).dsp.constructed = true ∧
    step (presenting 0x12000004 .none (display tc)) = .next t ∧
    t.dsp.displayHeight ≠ (presenting 0x12000004 .none (display tc)).dsp.displayHeight := by
  refine ⟨_, ?_, by decide, rfl, by decide⟩
  constructor <;> first | decide | (intro _ h; cases h) | (intro h; cases h)

/-- Steps that append events, that write RES, that append pin records (a command, a tick, a discovery) and that append panel
records (DISP_CFGSTATUS, a sequencer's step, a completion). -/
theorem witness_OutputsOnlyGrow :
    ((nextState (step (turn .tick (bound 0x01 0 [])))).isSome = true) ∧
    ((nextState (step (presenting 0x04000000 .none (bound 0x01 0 (List.replicate 8 false))))).map fun t => t.evq.length) =
      some 2 ∧
    ((nextState (step (presenting 0x05000001 .none (bound 0x01 0 [])))).map fun t => t.res) = some 1 ∧
    ((nextState (step (presenting 0x10000000 .none (blank tc)))).map fun t => t.ptrace.length) = some 3 ∧
    ((nextState (step (turn .tick (bound 0x01 0 (List.replicate 8 true))))).map fun t =>
      t.ptrace.length - (bound 0x01 0 []).ptrace.length) = some 26 ∧
    ((nextState (step (turn .dsp (booting 0)))).map fun t => t.ptrace.length - (booting 0).ptrace.length) = some 55 ∧
    ((nextState (step (presenting 0x12000001 .none (display tc)))).map fun t =>
      t.qtrace.length - (display tc).qtrace.length) = some 1 ∧
    ((nextState (step latched)).map fun t => t.qtrace.length - latched.qtrace.length) = some 1 ∧
    ((nextState (step (turn .xfer (flying (display tc))))).map fun t =>
      t.qtrace.length - (flying (display tc)).qtrace.length) = some 1 := by decide

/-- Three of the eight moves: into BOOT, into SF_W2 and back to IDLE. -/
theorem witness_PhaseMovesAsListed :
    ((nextState (step (presenting 0x10000000 .none (blank tc)))).map fun t => t.dsp.phase) = some .boot ∧
    ((nextState (step latched)).map fun t => t.dsp.phase) = some .sfW2 ∧
    ((nextState (step (turn .dsp (inPhase .sfW3 bar)))).map fun t => t.dsp.phase) = some .idle ∧
    (inPhase .sfW3 bar).dsp.phase.submitting = true := by decide

/-- I2, I6, L5, F5, F6: the faults of bring-up, palette and frame. -/
theorem witness_FaultsHaveTheirCauses_main :
    ((nextState (step (turn .dsp (booting 0x1FFFF)))).map fun t => (t.fault, t.dsp.phase)) =
      some (some (.displayNotFound, .value 0x1FFFF), .boot) ∧
    ((nextState (step (turn .dsp { booting 0 with mux := { (booting 0).mux with enabled := false } }))).map
      fun t => t.fault) = some (some (.readDisabled, .none)) ∧
    ((nextState (step (presenting 0x11000000 (.palette (List.replicate 47 0)) (display tc)))).map fun t => t.fault) =
      some (some (.paletteSize, .value 47)) ∧
    ((nextState (step (presenting 0x14000001 (.image ⟨8, 1, 1, []⟩) (display tc)))).map fun t => t.fault) =
      some (some (.frameBpp, .value 8)) ∧
    ((nextState (step (presenting 0x14000001 (.image ⟨4, 4, 4, List.replicate 8 0⟩) (display tc2)))).map fun t => t.fault) =
      some (some (.frameDim, .dims 4 4)) := by decide

/-- F9, F10, B9, H7, H5, N1: the faults of the status bar, of reading a disabled scanner, and of a busy sequencer. -/
theorem witness_FaultsHaveTheirCauses_rest :
    ((nextState (step (turn .dsp (inPhase .sfW2 ⟨8, 4, 1, []⟩)))).map fun t => t.fault) =
      some (some (.statusBpp, .value 8)) ∧
    ((nextState (step (turn .dsp (inPhase .sfW2 ⟨4, 4, 2, List.replicate 4 0⟩)))).map fun t => t.fault) =
      some (some (.statusDim, .dims 4 2)) ∧
    ((nextState (step (presenting 0x06000008 .none { scanner [] with mux :=
      { (scanner []).mux with enabled := false } }))).map fun t => t.fault) = some (some (.readDisabled, .none)) ∧
    ((nextState (step (presenting 0x12000001 .none (flying (display tc))))).map fun t => t.fault) =
      some (some (.cfgInFlight, .flight false true)) ∧
    ((nextState (step (presenting 0x12000005 .none (display tc)))).map fun t => t.fault) =
      some (some (.barTooTall, .value 5)) ∧
    ((nextState (step (presenting 0x11000000 (.palette pal16) latched))).map fun t => t.fault) =
      some (some (.dspBusy, .value 0x11)) := by decide

/-- Two states that differ in a byte of the buffer and in a clean palette. -/
theorem witness_UnspecifiedValuesNeverObserved : ∃ t : State, SameSpecified latched t ∧ t ≠ latched :=
  ⟨{ latched with dsp := { latched.dsp with currPalette := Vector.replicate 16 1, screenBuf := ⟨8, [(7, 0xFF)]⟩ } },
    ⟨rfl, rfl, fun h => by cases h⟩, by decide⟩

/-- A primed scanner beside a display that is up and idle, on the tick source's turn. -/
theorem witness_SuccessfulEndIsQuiet : ∃ t, Inv (turn .tick (display tc)) ∧ (turn .tick (display tc)).successfulEnd ∧
    step (turn .tick (display tc)) = .next t := by
  refine ⟨_, ?_, ⟨by decide, by decide, by decide, by decide, by decide⟩, rfl⟩
  constructor <;> first | decide | (intro _ h; cases h) | (intro h; cases h)

theorem witness_ReadBitsRunsTheProtocol : (scanner []).mux.enabled = true ∧ (blank tc).mux.enabled = false ∧
    (32 ≤ 32 ∧ 0 ≤ 32) := by decide

theorem witness_FirstSampleIsMostSignificant : (List.replicate 32 true).length ≤ 32 ∧ (List.replicate 8 true).length = 8 ∧
    ((bitsValue [true, false, false]).getLsbD 2 = true) := by decide

/-- For the scanner's commands: a scanner not constructed, a primed one, and a disabled one. -/
theorem witness_scanner_commands :
    ((blank tc).fault = none ∧ (blank tc).mux.constructed = false) ∧
    ((scanner []).fault = none ∧ (scanner []).mux.constructed = true ∧ (scanner []).mux.enabled = true) ∧
    ((nextState (exec .muxDisable (scanner []))).map fun t => (t.fault, t.mux.constructed, t.mux.enabled)) =
      some (none, true, false) := by decide

/-- MUX_SETINV under both values of INV_MODE, at the slot's bounds. -/
theorem witness_MuxSetinvSetsOrToggles : (scanner []).env.params.invMode = .set ∧
    ({ params tc with invMode := .toggle } : Params).invMode = .toggle ∧ (1 : Fin 8) ≠ 0 ∧ (1 : Fin 8) ≠ 7 := by decide

theorem witness_MuxTickSamplesEmitsAndStores :
    (0x80 : BitVec 8) = (bitsValue ((bound 0 0x00 (true :: List.replicate 7 false)).env.levels 8)).setWidth 8
      ^^^ (bound 0 0x00 (true :: List.replicate 7 false)).mux.invMask := by decide

theorem witness_EdgeTableHolds : (255 : ButtonId) ≠ 0 ∧ (bound 0 0 []).mux.enabled = true := by decide

/-- MUX_QUERY: an id bound to slot 1 and to no lower slot, and an id bound nowhere, under both rules. -/
theorem witness_MuxQueryAnswersFirstMatch :
    ((bound 0 0 []).env.params.bindRule = .atOnce ∧ ({ params tc with bindRule := .atTick } : Params).bindRule = .atTick) ∧
    (bound 0 0 []).mux.constructed = true ∧ (2 : ButtonId) ≠ 0 ∧
    (bound 0 0 []).mux.tickId = (bound 0 0 []).mux.id ∧ (bound 0 0 []).mux.id[(1 : Fin 8)] = 2 ∧
    (∀ j : Fin 8, j < 1 → (bound 0 0 []).mux.id[j] ≠ 2) ∧ (∀ j : Fin 8, (bound 0 0 []).mux.id[j] ≠ 9) := by decide

theorem witness_MuxReadbitsReturnsRawBits : 32 ≤ 32 ∧ (33 ≤ 33 ∧ 63 ≤ 63) ∧ (scanner []).mux.enabled = true ∧
    ({ (scanner []).mux with enabled := false } : Mux).constructed = true := by decide

theorem witness_ScannerCommandsFrame : ∃ t, (Instr.muxDisable).opcode < 0x10 ∧
    exec .muxDisable (scanner []) = .next t := ⟨_, by decide, rfl⟩

theorem witness_DispInitEntersBoot :
    ((blank tc).dsp.constructed = false ∧ (blank tc).dsp.phase = .idle ∧ (blank tc).mux.constructed = false) ∧
    ((scanner []).dsp.constructed = false ∧ (scanner []).dsp.phase = .idle ∧ (scanner []).mux.constructed = true) ∧
    (display tc).dsp.constructed = true ∧
    ((booting 0).fault = none ∧ (booting 0).dsp.constructed = false ∧ (booting 0).dsp.phase = .boot) := by decide

/-- The three values of the code that discovery tells apart, and a disabled scanner in BOOT. -/
theorem witness_DiscoveryReadsUntilAnIdentity :
    ((booting 0).fault = none ∧ (booting 0).dsp.phase = .boot ∧ (booting 0).mux.enabled = true) ∧
    (0 : IdCode) = (bitsValue ((booting 0).env.levels 17)).setWidth 17 ∧
    (0x1FFFF : IdCode) = (bitsValue ((booting 0x1FFFF).env.levels 17)).setWidth 17 ∧
    (0x1FFFE : IdCode) = (bitsValue ((booting 0x1FFFE).env.levels 17)).setWidth 17 ∧
    ({ booting 0 with mux := { (booting 0).mux with enabled := false } } : State).mux.enabled = false := by decide

theorem witness_BringUpProgramsThePanel : (params tc).config 0xABC = tc := by decide

theorem witness_StateAfterBringUp : ∃ t, Inv (turn .dsp (booting 0xABC)) ∧
    step (turn .dsp (booting 0xABC)) = .next t ∧ (booting 0xABC).dsp.constructed = false ∧ t.dsp.constructed = true :=
  ⟨_, inv_booting, rfl, by decide, by decide⟩

/-- For the display's commands in IDLE: a display not constructed and one that is up, idle and not updating. -/
theorem witness_display_commands :
    ((blank tc).fault = none ∧ (blank tc).dsp.phase = .idle ∧ (blank tc).dsp.constructed = false) ∧
    ((display tc).fault = none ∧ (display tc).dsp.phase = .idle ∧ (display tc).dsp.constructed = true ∧
      (display tc).dsp.inUpdate = false ∧ (display tc).xfer.busy = false) := by decide

theorem witness_DispSetpalLoadsTheTable : pal16.length = 48 ∧ (List.replicate 49 (0 : Byte)).length ≠ 48 := by decide

/-- The bounds of the bar, and the states in which a bar is refused or ignored. -/
theorem witness_DispCfgstatusSetsTheBar :
    ((display tc).dsp.doubleSize = false ∧ (4 : Dim).toNat ≤ (display tc).dsp.height.toNat ∧
      (display tc).dsp.height.toNat < (5 : Dim).toNat) ∧
    (display tc2).dsp.doubleSize = true ∧ (flying (display tc)).xfer.busy = true ∧
    (flying (display tc)).dsp.phase = .idle := by decide

theorem witness_DispSubmitstatusKeepsTheLast : (0 : Dim).toNat * (1 : Dim).toNat = 0 ∧
    bar.w.toNat * bar.h.toNat ≠ 0 := by decide

/-- A frame of the wrong depth, one row too low, and exact, without and with double size; and a guard that is set. -/
theorem witness_DispSubmitframeValidatesTheImage :
    8 ≠ 4 ∧ ((3 : Dim).toNat * 1 ≠ (display tc).dsp.displayHeight.toNat) ∧
    ((4 : Dim).toNat * 1 = (display tc).dsp.width.toNat ∧ (4 : Dim).toNat * 1 = (display tc).dsp.displayHeight.toNat) ∧
    ((2 : Dim).toNat * 2 = (display tc2).dsp.width.toNat ∧ (2 : Dim).toNat * 2 = (display tc2).dsp.displayHeight.toNat) ∧
    (let s : State := { display tc with dsp := { (display tc).dsp with inUpdate := true } };
      s.fault = none ∧ s.dsp.phase = .idle ∧ s.dsp.inUpdate = true) := by decide

/-- An image pending, none pending, double size, a display not constructed, and a guard that is set. -/
theorem witness_DispSubmitframeFlushesStatus :
    (let s : State := { display tc with dsp := { (display tc).dsp with lastStatus := some bar } };
      s.dsp.phase = .idle ∧ s.dsp.lastStatus ≠ none ∧ s.dsp.doubleSize = false) ∧
    ((display tc).dsp.lastStatus = none ∧ (display tc2).dsp.doubleSize = true) ∧
    ((blank tc).fault = none ∧ (blank tc).dsp.phase = .idle ∧ (blank tc).dsp.constructed = false) ∧
    (let s : State := { display tc with dsp := { (display tc).dsp with inUpdate := true } };
      s.fault = none ∧ s.dsp.phase = .idle ∧ s.dsp.inUpdate = true) := by decide

theorem witness_NestedFrameIsDropped : latched.fault = none ∧ latched.dsp.inUpdate = true ∧
    latched.dsp.phase.submitting = true := by decide

theorem witness_DisplayCommandsWhileBusy : (display tc).dsp.constructed = true ∧
    ((booting 0).dsp.phase = .boot ∧ (booting 0).dsp.constructed = false) ∧
    (inPhase .sfW3 bar).dsp.phase.submitting = true := by decide

theorem witness_DisplayCommandsFrame : ∃ t, 0x10 ≤ (Instr.dispCfgstatus 1).opcode ∧
    exec (.dispCfgstatus 1) (display tc) = .next t := ⟨_, by decide, rfl⟩

theorem witness_MainFrameStepCopiesAndSends :
    (latched.fault = none ∧ latched.dsp.phase = .sfW1 ∧ latched.xfer.busy = false ∧ latched.dsp.cur = some frame ∧
      6 = latched.env.params.imgBytes frame.w.toNat frame.h.toNat ∧ frame.data.length = 6 ∧
      6 ≤ latched.dsp.screenBuf.size) ∧
    (latched.dsp.lastStatus ≠ none ∧ latched.dsp.doubleSize = false) ∧
    (({ latched with dsp := { latched.dsp with lastStatus := none } } : State).dsp.lastStatus = none) := by decide

theorem witness_StatusStepCopiesAndSends :
    let s := inPhase .sfW2 bar
    s.fault = none ∧ s.dsp.phase = .sfW2 ∧ s.xfer.busy = false ∧ s.dsp.lastStatus = some bar ∧ bar.bpp = 4 ∧
      bar.w = s.dsp.width ∧ bar.h.toNat = s.dsp.height.toNat - s.dsp.displayHeight.toNat ∧
      2 = s.env.params.imgBytes bar.w.toNat bar.h.toNat ∧ bar.data.length = 2 ∧ 2 ≤ s.dsp.screenBuf.size := by decide

theorem witness_StatusStepRejectsAMisfit :
    let s := inPhase .sfW2 ⟨8, 4, 1, []⟩
    let s' := inPhase .sfW2 ⟨4, 4, 2, [0, 0, 0, 0]⟩
    (s.fault = none ∧ s.dsp.phase = .sfW2 ∧ s.xfer.busy = false ∧ s.dsp.lastStatus = some ⟨8, 4, 1, []⟩) ∧
      s'.dsp.lastStatus = some ⟨4, 4, 2, [0, 0, 0, 0]⟩ ∧
      (2 : Dim).toNat ≠ s'.dsp.height.toNat - s'.dsp.displayHeight.toNat := by decide

theorem witness_FinishStepRestoresTheWindow :
    ((inPhase .sfW3 bar).fault = none ∧ (inPhase .sfW3 bar).dsp.phase = .sfW3 ∧ (inPhase .sfW3 bar).xfer.busy = false) ∧
    ((flying (inPhase .sfW3 bar)).dsp.phase = .sfW3 ∧ (flying (inPhase .sfW3 bar)).xfer.busy = true) := by decide

theorem witness_AwaitingStepsWait : ((flying (inPhase .sfW2 bar)).fault = none ∧
      (flying (inPhase .sfW2 bar)).xfer.busy = true ∧ (flying (inPhase .sfW2 bar)).dsp.phase.submitting = true) ∧
    (display tc).dsp.phase = .idle ∧ latched.env.agent = .dsp := by decide

theorem witness_SequencerStepsFrame : ∃ t u, dspStep latched = .next t ∧ xferStep (flying (display tc)) = .next u :=
  ⟨_, _, rfl, rfl⟩

theorem witness_FrameWithStatusBarSequence : Inv latched ∧ latched.fault = none ∧ latched.dsp.phase = .sfW1 ∧
    latched.xfer.busy = false ∧ latched.dsp.doubleSize = false ∧ latched.dsp.cur = some frame ∧
    latched.dsp.lastStatus = some bar ∧ bar.bpp = 4 ∧ bar.w = latched.dsp.width ∧
    bar.h.toNat = latched.dsp.height.toNat - latched.dsp.displayHeight.toNat :=
  ⟨inv_latched, by decide, by decide, by decide, by decide, by decide, by decide, by decide, by decide, by decide⟩

/-- A tick and a MUX_INIT that change the stored levels, a state in which they are 0, a running scanner, R217's reading, and a
MUX_BIND of slot 0 that concerns neither the id 2 of slot 1 nor an id bound nowhere. -/
theorem witness_QueriesAnswerFromTheLastTick :
    ((nextState (step (turn .tick (bound 0x00 0 (List.replicate 8 true))))).map fun t => t.mux.state) = some 0xFF ∧
    (let s : State := { blank tc with mux := { (blank tc).mux with state := 1 } };
      s.mux.constructed = false ∧
        ((nextState (step (presenting 0x01000000 .none s))).map fun t => t.mux.state) = some 0) ∧
    ((scanner []).fault = none ∧ (scanner []).mux.state = 0) ∧
    ((bound 0x02 0 []).mux.constructed = true ∧ (bound 0x02 0 []).mux.enabled = true) ∧
    ({ params tc with bindRule := .atTick } : Params).bindRule = .atTick ∧
    ((2 : ButtonId) ≠ 5 ∧ 2 ≠ (bound 0x02 0 []).mux.id[(0 : Fin 8)]) ∧
    ((9 : ButtonId) ≠ 5 ∧ 9 ≠ (bound 0x02 0 []).mux.id[(0 : Fin 8)]) := by decide

end Sys2Proof.Tests
end

section
/-! PROOFS. The scope: a halted block has no step (00_scope.md R14). -/

namespace Sys2Proof.Machine

/-! ## Commands and turns on a halted block -/

section
variable {s : State} {c : FaultCode × FaultInfo}

/-- Every command's meaning stands under `whenRunning`. -/
theorem exec_halted (h : s.fault = some c) (i : Instr) : exec i s = .fault .halted := by
  cases i <;>
    simp only [exec, execMuxInit, execMuxBind, execMuxSetinv, execMuxTick, execMuxQuery, execMuxReadbits, execMuxDisable,
      execDispInit, execDispSetpal, execDispCfgstatus, execDispSubmitstatus, execDispSubmitframe, whenRunning_halted h]

theorem present_halted (h : s.fault = some c) (cmd : Command) : present cmd s = .fault .halted := by
  unfold present
  split
  · exact exec_halted h _
  · exact whenRunning_halted h _

theorem hostStep_halted (h : s.fault = some c) : hostStep s = .fault .halted := by
  unfold hostStep
  split
  · exact whenRunning_halted h _
  · exact present_halted (by rwa [State.takeCommand_fault]) _

theorem tickStep_halted (h : s.fault = some c) : tickStep s = .fault .halted := by
  unfold tickStep
  split
  · exact exec_halted h _
  · exact whenRunning_halted h _

theorem dspStep_halted (h : s.fault = some c) : dspStep s = .fault .halted := by
  unfold dspStep
  exact whenRunning_halted h _

theorem xferStep_halted (h : s.fault = some c) : xferStep s = .fault .halted := by
  unfold xferStep
  exact whenRunning_halted h _

theorem agentStep_halted (h : s.fault = some c) (a : Agent) : agentStep a s = .fault .halted := by
  cases a with
  | host => exact hostStep_halted h
  | tick => exact tickStep_halted h
  | dsp => exact dspStep_halted h
  | xfer => exact xferStep_halted h

/-- Taking a turn leaves FAULT alone, so the agent whose turn it is meets the halted block. -/
theorem step_halted (h : s.fault = some c) : step s = .fault .halted :=
  agentStep_halted (by rwa [State.afterTurn_fault]) _

end

end Sys2Proof.Machine

namespace Sys2Proof.Proofs

open Sys2Proof.Machine

/-- Settles O9: every agent's turn and every command stands under `whenRunning`, which halts on a fault. -/
theorem haltedBlockHasNoStep : Obligations.HaltedBlockHasNoStep := by
  intro s hs
  obtain ⟨c, hc⟩ := Option.ne_none_iff_exists'.1 hs
  exact ⟨step_halted hc, exec_halted hc⟩

end Sys2Proof.Proofs
end

section
/-! PROOFS. The scanner's words and commands MUX_BIND, MUX_SETINV and MUX_READBITS (40_scanner.md R114, R116, R117). -/

namespace Sys2Proof.Machine

/-! ## Words that spell a command -/

/-- A word spells a command when its number is the command's and the command's encoding decodes to it. -/
theorem spells_of_decode_encode {i : Instr} {w : Nat} {pl : Payload} (hw : i.opcode * 2 ^ 24 + i.operandBits = w)
    (hp : i.payload = pl)
    (hd : ∀ p : Params, i.wf p = true → decode p (encode i).word (encode i).payload = .ok i) : Spells i w pl := by
  have he := encode_eq hw hp
  rw [he] at hd
  exact ⟨he, hd⟩

theorem decodeBare_zero_none (i : Instr) : decodeBare 0 .none i = .ok i := rfl

/-- A slot in W[10:8] of an encoded command is read back from there. -/
theorem slotField_encode {i : Instr} {slot : Fin 8} (h : i.operandBits / 2 ^ 8 = slot.val) :
    slotField (encode i).word = slot := by
  refine Fin.ext ?_
  change field (encode i).word 10 8 = slot.val
  rw [encode_field i 10 8 (by decide) (by decide), h]
  omega

theorem decode_encode_muxBind (p : Params) (slot : Fin 8) (id : ButtonId) :
    decode p (encode (.muxBind slot id)).word .none = .ok (.muxBind slot id) := by
  have hbits : (Instr.muxBind slot id).operandBits = slot.val * 2 ^ 8 + id.toNat := rfl
  have hres : field (encode (.muxBind slot id)).word 23 11 = 0 := by
    rw [encode_field _ 23 11 (by decide) (by decide), hbits]; omega
  have hslot : slotField (encode (.muxBind slot id)).word = slot := slotField_encode (by rw [hbits]; omega)
  have hid : field (encode (.muxBind slot id)).word 7 0 = id.toNat := by
    rw [encode_field _ 7 0 (by decide) (by decide), hbits]; omega
  simp only [decode, encode_opcode, Instr.opcode, hres, hslot, hid, BitVec.ofNat_toNat, BitVec.setWidth_eq,
    decodeBare_zero_none]

theorem decode_encode_muxSetinv (p : Params) (slot : Fin 8) :
    decode p (encode (.muxSetinv slot)).word .none = .ok (.muxSetinv slot) := by
  have hbits : (Instr.muxSetinv slot).operandBits = slot.val * 2 ^ 8 := rfl
  have hhigh : field (encode (.muxSetinv slot)).word 23 11 = 0 := by
    rw [encode_field _ 23 11 (by decide) (by decide), hbits]; omega
  have hlow : field (encode (.muxSetinv slot)).word 7 0 = 0 := by
    rw [encode_field _ 7 0 (by decide) (by decide), hbits]; omega
  have hslot : slotField (encode (.muxSetinv slot)).word = slot := slotField_encode (by rw [hbits]; omega)
  simp only [decode, encode_opcode, Instr.opcode, hhigh, hlow, hslot, Nat.add_zero, decodeBare_zero_none]

theorem muxReadbits_number {n : Nat} (h : n < 64) :
    (Instr.muxReadbits n).opcode * 2 ^ 24 + (Instr.muxReadbits n).operandBits = 0x06000000 + n := by
  simp only [Instr.opcode, Instr.operandBits]
  omega

/-- The count field of an encoded MUX_READBITS. -/
theorem encode_muxReadbits_count {n : Nat} (h : n < 64) : field (encode (.muxReadbits n)).word 5 0 = n := by
  rw [encode_field _ 5 0 (by decide) (by decide), Instr.operandBits]
  omega

theorem decode_encode_muxReadbits (p : Params) {n : Nat} (h : n ≤ 32) :
    decode p (encode (.muxReadbits n)).word .none = .ok (.muxReadbits n) := by
  have hres : field (encode (.muxReadbits n)).word 23 6 = 0 := by
    rw [encode_field _ 23 6 (by decide) (by decide), Instr.operandBits]; omega
  have hcount := encode_muxReadbits_count (n := n) (by omega)
  simp [decode, encode_opcode, Instr.opcode, decodeCount, hres, hcount, Nat.not_lt.2 h, decodeBare_zero_none]

/-- Format R admits no count above 32 (30_encoding.md R83). -/
theorem count_le_of_decodeCount_ok {w : Word} {pl : Payload} {i : Instr} (h : decodeCount w pl = .ok i) :
    field w 5 0 ≤ 32 := by
  unfold decodeCount at h
  split at h
  · cases h
  · split at h
    · cases h
    · omega

/-- An encoded MUX_READBITS whose count is above 32 is no command's word, whatever comes with it. -/
theorem decode_encode_muxReadbits_ne_ok (p : Params) (pl : Payload) (i : Instr) {n : Nat} (h : 33 ≤ n) (h' : n ≤ 63) :
    decode p (encode (.muxReadbits n)).word pl ≠ .ok i := by
  intro hd
  have hc : decode p (encode (.muxReadbits n)).word pl = decodeCount (encode (.muxReadbits n)).word pl := by
    simp only [decode, encode_opcode, Instr.opcode]
  have hle := count_le_of_decodeCount_ok (hc ▸ hd)
  rw [encode_muxReadbits_count (by omega)] at hle
  omega

/-! ## What the commands do on a block with no fault -/

section
variable {s : State} (hf : s.fault = none)
include hf

theorem exec_muxBind (slot : Fin 8) (id : ButtonId) :
    exec (.muxBind slot id) s =
      if s.mux.constructed then .next { s with mux := { s.mux with id := s.mux.id.set slot id } } else .next s := by
  rw [exec, execMuxBind, whenRunning_running hf]

theorem exec_muxSetinv (slot : Fin 8) :
    exec (.muxSetinv slot) s =
      if s.mux.constructed then
        .next { s with mux := { s.mux with invMask := invertedMask s.env.params.invMode s.mux.invMask slot } }
      else .next s := by
  rw [exec, execMuxSetinv, whenRunning_running hf]

theorem exec_muxReadbits_enabled (n : Nat) (hc : s.mux.constructed = true) (he : s.mux.enabled = true) :
    exec (.muxReadbits n) s = .next { s.afterRead n with res := bitsValue (s.env.levels n) } := by
  rw [exec, execMuxReadbits, whenRunning_running hf, if_pos hc, State.readBits_enabled he]

theorem exec_muxReadbits_disabled (n : Nat) (hc : s.mux.constructed = true) (he : s.mux.enabled = false) :
    exec (.muxReadbits n) s = .next (s.raise .readDisabled .none) := by
  rw [exec, execMuxReadbits, whenRunning_running hf, if_pos hc, State.readBits_disabled he]

theorem exec_muxReadbits_unbuilt (n : Nat) (hc : s.mux.constructed = false) :
    exec (.muxReadbits n) s = .next { s with res := 0 } := by
  rw [exec, execMuxReadbits, whenRunning_running hf, if_neg (by simp [hc])]

end

/-! ## The mask MUX_SETINV writes -/

/-- The word MUX_SETINV combines with the mask has the slot's bit alone. -/
theorem getLsbD_slotBit (slot j : Fin 8) : (1#8 <<< slot.val).getLsbD j.val = decide (slot = j) := by
  rw [← BitVec.twoPow_eq, BitVec.getLsbD_twoPow]
  simp [Fin.ext_iff]

theorem invertedMask_getLsbD_of_ne (mode : InvMode) (mask : BitVec 8) {slot j : Fin 8} (h : j ≠ slot) :
    (invertedMask mode mask slot).getLsbD j.val = mask.getLsbD j.val := by
  cases mode with
  | set => simp only [invertedMask, BitVec.getLsbD_or, getLsbD_slotBit, h.symm, decide_false, Bool.or_false]
  | toggle => simp only [invertedMask, BitVec.getLsbD_xor, getLsbD_slotBit, h.symm, decide_false, Bool.xor_false]

theorem invertedMask_set_getLsbD (mask : BitVec 8) (slot : Fin 8) :
    (invertedMask .set mask slot).getLsbD slot.val = true := by
  simp only [invertedMask, BitVec.getLsbD_or, getLsbD_slotBit, decide_true, Bool.or_true]

theorem invertedMask_toggle_getLsbD (mask : BitVec 8) (slot : Fin 8) :
    (invertedMask .toggle mask slot).getLsbD slot.val = !mask.getLsbD slot.val := by
  simp only [invertedMask, BitVec.getLsbD_xor, getLsbD_slotBit, decide_true, Bool.xor_true]

end Sys2Proof.Machine

namespace Sys2Proof.Proofs

open Sys2Proof.Machine

/-- Settles O28: the mask written is `invertedMask`, read bit by bit under each value of INV_MODE. -/
theorem muxSetinvSetsOrToggles : Obligations.MuxSetinvSetsOrToggles := by
  intro slot
  refine ⟨spells_of_decode_encode (by simp only [Instr.opcode, Instr.operandBits]; omega) rfl
    fun p _ => decode_encode_muxSetinv p slot, fun s hf => ⟨fun hc => ?_, fun hc => ?_⟩⟩
  · refine ⟨_, (exec_muxSetinv hf slot).trans (if_pos hc), fun j hj => invertedMask_getLsbD_of_ne _ _ hj,
      fun hm => ?_, fun hm => ?_⟩
    · rw [hm, invertedMask_set_getLsbD]
    · rw [hm, invertedMask_toggle_getLsbD]
  · rw [exec_muxSetinv hf, if_neg (by simp [hc])]

/-- Settles O32: the three outcomes of ReadBits after a count of at most 32, and the decoder's bound on the count. -/
theorem muxReadbitsReturnsRawBits : Obligations.MuxReadbitsReturnsRawBits := by
  refine ⟨fun n hn => ⟨?_, fun s hf => ⟨fun hc he => ⟨exec_muxReadbits_enabled hf n hc he, ?_⟩,
    exec_muxReadbits_unbuilt hf n, exec_muxReadbits_disabled hf n⟩⟩, fun n hlo hhi p pl i => ?_⟩
  · exact spells_of_decode_encode (muxReadbits_number (by omega)) rfl fun p _ => decode_encode_muxReadbits p hn
  · rw [readRecords_length, Env.levels_length]
  · have hw : (encode (.muxReadbits n)).word = BitVec.ofNat 32 (0x06000000 + n) := by
      rw [encode_eq (muxReadbits_number (by omega)) rfl]
    rw [← hw]
    exact decode_encode_muxReadbits_ne_ok p pl i hlo hhi

/-- Settles O27: the bindings written are the old ones with the named slot set. -/
theorem muxBindWritesOneBinding : Obligations.MuxBindWritesOneBinding := by
  intro slot id
  refine ⟨spells_of_decode_encode (by simp only [Instr.opcode, Instr.operandBits]; omega) rfl
    fun p _ => decode_encode_muxBind p slot id, fun s hf => ⟨fun hc => ?_, fun hc => ?_⟩⟩
  · refine ⟨_, (exec_muxBind hf slot id).trans (if_pos hc), Vector.getElem_set_self _, fun j hj => ?_⟩
    exact Vector.getElem_set_ne _ _ fun e => hj (Fin.ext e.symm)
  · rw [exec_muxBind hf, if_neg (by simp [hc])]

end Sys2Proof.Proofs
end

section
/-! PROOFS. The display's palette, status-bar and pending-image commands, and every display command outside IDLE
(41_display.md R144, R145, R147, R148, R168, R169). -/

namespace Sys2Proof

/-! ## Words that spell a display command -/

theorem decode_encode_dispSetpal (p : Params) (pal : List Byte) :
    decode p (encode (.dispSetpal pal)).word (.palette pal) = .ok (.dispSetpal pal) := by
  have hres : field (encode (.dispSetpal pal)).word 23 0 = 0 := by
    rw [encode_field _ 23 0 (by decide) (by decide), Instr.operandBits, Nat.zero_div, Nat.zero_mod]
  simp only [decode, encode_opcode, Instr.opcode, decodePalette, hres, ne_eq, not_true_eq_false, if_false]

theorem decode_encode_dispCfgstatus (p : Params) (h : Dim) :
    decode p (encode (.dispCfgstatus h)).word .none = .ok (.dispCfgstatus h) := by
  have hres : field (encode (.dispCfgstatus h)).word 23 16 = 0 := (Laws.Placement.dispCfgstatus h).2
  have hheight : field (encode (.dispCfgstatus h)).word 15 0 = h.toNat := by
    rw [encode_field _ 15 0 (by decide) (by decide), Instr.operandBits]; omega
  simp only [decode, encode_opcode, Instr.opcode, hres, hheight, BitVec.ofNat_toNat, BitVec.setWidth_eq,
    Machine.decodeBare_zero_none]

/-- Format I reads an image operand back: the flag stands in W[0], the image in the payload (30_encoding.md R84). -/
theorem decodeImage_encode (p : Params) {i : Instr} (img : Option Image) (mk : Option Image → Instr)
    (hb : i.operandBits = imageFlag img) (hwf : ∀ j, img = some j → j.wf p = true) :
    decodeImage p (encode i).word (imagePayload img) mk = .ok (mk img) := by
  have hlt := imageFlag_lt img
  have hres : field (encode i).word 23 1 = 0 := by
    rw [encode_field _ 23 1 (by decide) (by decide), hb]; omega
  have hflag : field (encode i).word 0 0 = imageFlag img := by
    rw [encode_field _ 0 0 (by decide) (by decide), hb]; omega
  cases img with
  | none => simp [decodeImage, hres, hflag, imageFlag, imagePayload]
  | some j => simp [decodeImage, hres, hflag, imageFlag, imagePayload, hwf j rfl]

theorem decode_encode_dispSubmitstatus (p : Params) (img : Option Image)
    (hwf : (Instr.dispSubmitstatus img).wf p = true) :
    decode p (encode (.dispSubmitstatus img)).word (imagePayload img) = .ok (.dispSubmitstatus img) := by
  simp only [decode, encode_opcode, Instr.opcode]
  exact decodeImage_encode p img _ rfl fun j hj => by subst hj; exact hwf

end Sys2Proof

namespace Sys2Proof.Machine

/-! ## Colours -/

/-- The packed triple is its lanes side by side. -/
theorem pack_eq_append (r g b : Byte) : pack r g b = r ++ (g ++ b) := by
  refine BitVec.eq_of_getLsbD_eq fun k hk => ?_
  simp only [pack, BitVec.getLsbD_or, BitVec.getLsbD_shiftLeft, BitVec.getLsbD_setWidth, BitVec.getLsbD_append]
  split_ifs with hgb hb
  · simp [hk, hb, hgb]
  · simp [hk, hb, hgb, BitVec.getLsbD_of_ge b k (Nat.not_lt.1 hb), Nat.sub_lt_of_lt hk]
  · simp [hk, hgb, BitVec.getLsbD_of_ge b k (by omega), BitVec.getLsbD_of_ge g (k - 8) (by omega), Nat.sub_lt_of_lt hk]

theorem pack_toNat (r g b : Byte) : (pack r g b).toNat = r.toNat * 2 ^ 16 + g.toNat * 2 ^ 8 + b.toNat := by
  rw [pack_eq_append, BitVec.toNat_append, BitVec.toNat_append, ← Nat.shiftLeft_add_eq_or_of_lt (BitVec.isLt b),
    ← Nat.shiftLeft_add_eq_or_of_lt (by omega), Nat.shiftLeft_eq, Nat.shiftLeft_eq, Nat.add_assoc]

/-- Entry k of a loaded palette, from the three bytes that stand at 3k. -/
theorem loadPalette_getElem {pal : List Byte} (h : pal.length = 48) (palXOR : Colour) (k : Fin 16) :
    (loadPalette pal palXOR)[k] =
      pack (pal[3 * k.val]'(by omega)) (pal[3 * k.val + 1]'(by omega)) (pal[3 * k.val + 2]'(by omega)) ^^^ palXOR := by
  have hk := k.isLt
  simp only [loadPalette, paletteEntry, Fin.getElem_fin, Vector.getElem_ofFn]
  rw [List.getD_eq_getElem _ _ (by omega), List.getD_eq_getElem _ _ (by omega), List.getD_eq_getElem _ _ (by omega)]

/-! ## What the commands do on a block with no fault -/

/-- A frame sequence stands in neither IDLE nor BOOT (10_state.md R32). -/
theorem Phase.ne_of_submitting {ph : Phase} (h : ph.submitting = true) : ph ≠ .idle ∧ ph ≠ .boot := by
  constructor <;> (rintro rfl; cases h)

theorem State.inFlight_iff (s : State) : s.inFlight = true ↔ s.dsp.inUpdate = true ∨ s.xfer.busy = true := by
  rw [State.inFlight, Bool.or_eq_true]

theorem emptyImage_iff (img : Image) : emptyImage img = true ↔ img.w.toNat * img.h.toNat = 0 := by
  rw [emptyImage, beq_iff_eq]

section
variable {s : State} (hf : s.fault = none)
include hf

theorem exec_dispInit_constructed (hc : s.dsp.constructed = true) : exec .dispInit s = .next s := by
  rw [exec, execDispInit, whenRunning_running hf, if_pos hc]

theorem exec_dispInit_busy (hc : s.dsp.constructed = false) (hp : s.dsp.phase ≠ .idle) :
    exec .dispInit s = .next (s.raiseBusy .dispInit) := by
  rw [exec, execDispInit, whenRunning_running hf, if_neg (by simp [hc]), if_pos hp]

theorem exec_dispSetpal_busy (pal : List Byte) (hp : s.dsp.phase ≠ .idle) :
    exec (.dispSetpal pal) s = .next (s.raiseBusy (.dispSetpal pal)) := by
  rw [exec, execDispSetpal, whenRunning_running hf, if_pos hp]

theorem exec_dispSetpal_idle (pal : List Byte) (hp : s.dsp.phase = .idle) :
    exec (.dispSetpal pal) s =
      if !s.dsp.constructed then .next s
      else if pal.length ≠ 48 then .next (s.raise .paletteSize (.value pal.length))
      else .next { s with dsp := { s.dsp with currPalette := loadPalette pal s.dsp.palXOR, newPalette := true } } := by
  rw [exec, execDispSetpal, whenRunning_running hf, if_neg (not_not.2 hp)]

theorem exec_dispCfgstatus_boot (h : Dim) (hp : s.dsp.phase = .boot) :
    exec (.dispCfgstatus h) s = .next (s.raiseBusy (.dispCfgstatus h)) := by
  rw [exec, execDispCfgstatus, whenRunning_running hf, if_pos hp]

theorem exec_dispCfgstatus_submitting (h : Dim) (hp : s.dsp.phase.submitting = true) :
    exec (.dispCfgstatus h) s = .next s.raiseInFlight := by
  obtain ⟨hidle, hboot⟩ := Phase.ne_of_submitting hp
  rw [exec, execDispCfgstatus, whenRunning_running hf, if_neg hboot, if_pos hidle]

theorem exec_dispCfgstatus_idle (h : Dim) (hp : s.dsp.phase = .idle) :
    exec (.dispCfgstatus h) s =
      if !s.dsp.constructed then .next s
      else if s.inFlight then .next s.raiseInFlight
      else if s.dsp.doubleSize then .next s
      else if s.dsp.height.toNat < h.toNat then .next (s.raise .barTooTall (.value h.toNat))
      else .next (s.setBar h) := by
  rw [exec, execDispCfgstatus, whenRunning_running hf, if_neg (by simp [hp]), if_neg (not_not.2 hp)]

theorem exec_dispSubmitstatus_busy (img : Option Image) (hp : s.dsp.phase ≠ .idle) :
    exec (.dispSubmitstatus img) s = .next (s.raiseBusy (.dispSubmitstatus img)) := by
  rw [exec, execDispSubmitstatus, whenRunning_running hf, if_pos hp]

theorem exec_dispSubmitstatus_none (hp : s.dsp.phase = .idle) : exec (.dispSubmitstatus none) s = .next s := by
  rw [exec, execDispSubmitstatus, whenRunning_running hf, if_neg (not_not.2 hp)]
  exact ite_self _

theorem exec_dispSubmitstatus_some (img : Image) (hp : s.dsp.phase = .idle) :
    exec (.dispSubmitstatus (some img)) s =
      if !s.dsp.constructed then .next s
      else if emptyImage img then .next s
      else .next { s with dsp := { s.dsp with lastStatus := some img } } := by
  rw [exec, execDispSubmitstatus, whenRunning_running hf, if_neg (not_not.2 hp)]

theorem exec_dispSubmitframe_boot (img : Option Image) (hp : s.dsp.phase = .boot) :
    exec (.dispSubmitframe img) s = .next (s.raiseBusy (.dispSubmitframe img)) := by
  rw [exec, execDispSubmitframe, whenRunning_running hf, if_pos hp]

/-- A frame command that meets the guard set is dropped, except in BOOT. -/
theorem exec_dispSubmitframe_dropped (img : Option Image) (hp : s.dsp.phase ≠ .boot) (hu : s.dsp.inUpdate = true) :
    exec (.dispSubmitframe img) s = .next s := by
  rw [exec, execDispSubmitframe, whenRunning_running hf, if_neg hp, if_pos hu]

end

end Sys2Proof.Machine

namespace Sys2Proof.Proofs

open Sys2Proof.Machine

/-- Settles O40: the table written is `loadPalette`, read entry by entry. -/
theorem dispSetpalLoadsTheTable : Obligations.DispSetpalLoadsTheTable := by
  intro pal
  refine ⟨spells_of_decode_encode (by rw [Instr.opcode, Instr.operandBits]; rfl) rfl
    fun p _ => decode_encode_dispSetpal p pal, fun s hf hp => ?_⟩
  rw [exec_dispSetpal_idle hf pal hp]
  refine ⟨fun hc hlen => ⟨loadPalette pal s.dsp.palXOR, ?_, loadPalette_getElem hlen _⟩, fun hc hlen => ?_,
    fun hc => ?_⟩
  · rw [if_neg (by simp [hc]), if_neg (not_not.2 hlen)]
  · rw [if_neg (by simp [hc]), if_pos hlen, State.raise]
  · rw [if_pos (by simp [hc])]

/-- Settles O41: the checks of DISP_CFGSTATUS in their order, and a subtraction that does not wrap once they pass. -/
theorem dispCfgstatusSetsTheBar : Obligations.DispCfgstatusSetsTheBar := by
  intro h
  refine ⟨spells_of_decode_encode (by simp only [Instr.opcode, Instr.operandBits]; omega) rfl
    fun p _ => decode_encode_dispCfgstatus p h, fun s hf hp => ?_⟩
  rw [exec_dispCfgstatus_idle hf h hp]
  refine ⟨fun hc => ?_, fun hc hfly => ?_, fun hc hu hb => ?_⟩
  · rw [if_pos (by simp [hc])]
  · rw [if_neg (by simp [hc]), if_pos (s.inFlight_iff.2 hfly), State.raiseInFlight, State.raise]
  · have hrest : ¬ s.inFlight = true := by simp [s.inFlight_iff, hu, hb]
    rw [if_neg (by simp [hc]), if_neg hrest]
    refine ⟨fun hd => ?_, fun hd htall => ?_, fun hd hfits => ?_⟩
    · rw [if_pos hd]
    · rw [if_neg (by simp [hd]), if_pos htall, State.raise]
    · have hsub : (s.dsp.height - h).toNat = s.dsp.height.toNat - h.toNat := BitVec.toNat_sub_of_le hfits
      refine ⟨s.dsp.height - h, hsub, ?_⟩
      rw [if_neg (by simp [hd]), if_neg (Nat.not_lt.2 hfits), ← hsub]
      rfl

/-- Settles O39: a packed colour is its three lanes side by side. -/
theorem packPlacesTheLanes : Obligations.PackPlacesTheLanes := by
  intro r g b
  refine ⟨pack_toNat r g b, ?_⟩
  rw [pack_eq_append]
  refine ⟨?_, ?_, ?_⟩
  · rw [BitVec.extractLsb'_append_eq_of_le (by omega)]; simp
  · rw [BitVec.extractLsb'_append_eq_of_add_le (by omega), BitVec.extractLsb'_append_eq_left]
  · rw [BitVec.extractLsb'_append_eq_of_add_le (by omega), BitVec.extractLsb'_append_eq_right]

/-- Settles O42: what is stored is the image itself, after the checks for none, for construction and for emptiness. -/
theorem dispSubmitstatusKeepsTheLast : Obligations.DispSubmitstatusKeepsTheLast := by
  refine ⟨spells_of_decode_encode (by rw [Instr.opcode, Instr.operandBits, imageFlag]; rfl) rfl
      fun p hw => decode_encode_dispSubmitstatus p none hw,
    fun img => spells_of_decode_encode (by rw [Instr.opcode, Instr.operandBits, imageFlag]; rfl) rfl
      fun p hw => decode_encode_dispSubmitstatus p (some img) hw,
    fun s hf hp => ⟨exec_dispSubmitstatus_none hf hp, fun img => ?_⟩⟩
  rw [exec_dispSubmitstatus_some hf img hp]
  refine ⟨fun hc => ?_, fun hc he => ?_, fun hc he => ?_⟩
  · rw [if_pos (by simp [hc])]
  · rw [if_pos ((emptyImage_iff img).2 he), ite_self]
  · rw [if_neg (by simp [hc]), if_neg (mt (emptyImage_iff img).1 he)]

/-- Settles O45: a frame sequence is not BOOT, and outside BOOT the guard drops the command. -/
theorem nestedFrameIsDropped : Obligations.NestedFrameIsDropped :=
  fun _ img hf hu hp => exec_dispSubmitframe_dropped hf img (Phase.ne_of_submitting hp).2 hu

/-- Settles O46: the phase decides before any other check of the command, except DISP_INIT's on construction. -/
theorem displayCommandsWhileBusy : Obligations.DisplayCommandsWhileBusy := by
  refine fun s hf => ⟨exec_dispInit_constructed hf, fun hboot => ?_, fun hsub => ?_⟩
  · have hidle : s.dsp.phase ≠ .idle := by simp [hboot]
    exact ⟨fun hc => exec_dispInit_busy hf hc hidle, fun img => exec_dispSubmitframe_boot hf img hboot,
      fun pal => exec_dispSetpal_busy hf pal hidle, fun img => exec_dispSubmitstatus_busy hf img hidle,
      fun h => exec_dispCfgstatus_boot hf h hboot⟩
  · have hidle : s.dsp.phase ≠ .idle := (Phase.ne_of_submitting hsub).1
    exact ⟨fun h => exec_dispCfgstatus_submitting hf h hsub, fun pal => exec_dispSetpal_busy hf pal hidle,
      fun img => exec_dispSubmitstatus_busy hf img hidle⟩

end Sys2Proof.Proofs
end

section
/-! PROOFS. The encoding: decode and encode are inverse to each other, and the decoder follows the opcode map
(30_encoding.md R80–R92). -/

namespace Sys2Proof

/-! ## What each format accepts -/

theorem decodeBare_ok {reserved : Nat} {pl : Payload} {i j : Instr} (h : decodeBare reserved pl i = .ok j) :
    reserved = 0 ∧ pl = .none ∧ j = i := by
  unfold decodeBare at h
  split at h
  · cases h
  · split at h <;> cases h
    exact ⟨not_not.1 ‹_›, rfl, rfl⟩

theorem decodePalette_ok {w : Word} {pl : Payload} {i : Instr} (h : decodePalette w pl = .ok i) :
    field w 23 0 = 0 ∧ ∃ bytes, pl = .palette bytes ∧ i = .dispSetpal bytes := by
  unfold decodePalette at h
  split at h
  · cases h
  · split at h <;> cases h
    exact ⟨not_not.1 ‹_›, _, rfl, rfl⟩

theorem decodeCount_ok {w : Word} {pl : Payload} {i : Instr} (h : decodeCount w pl = .ok i) :
    field w 23 6 = 0 ∧ pl = .none ∧ i = .muxReadbits (field w 5 0) := by
  unfold decodeCount at h
  split at h
  · cases h
  · split at h
    · cases h
    · exact ⟨not_not.1 ‹_›, (decodeBare_ok h).2⟩

theorem decodeImage_ok {p : Params} {w : Word} {pl : Payload} {mk : Option Image → Instr} {i : Instr}
    (h : decodeImage p w pl mk = .ok i) :
    field w 23 1 = 0 ∧ ∃ img, i = mk img ∧ pl = imagePayload img ∧ field w 0 0 = imageFlag img ∧
      ∀ j, img = some j → j.wf p = true := by
  unfold decodeImage at h
  split at h
  · cases h
  · refine ⟨not_not.1 ‹_›, ?_⟩
    split at h
    · split at h <;> cases h
      exact ⟨none, rfl, rfl, ‹_›, fun _ hj => nomatch hj⟩
    · split at h
      · split at h <;> cases h
        rename_i hflag _ img hwf
        have hlt : field w 0 0 < 2 := field_lt w 0 0
        refine ⟨some img, rfl, rfl, ?_, fun j hj => Option.some.inj hj ▸ hwf⟩
        rw [imageFlag]
        omega
      · cases h
      · cases h

theorem Instr.wf_dispSubmitstatus {p : Params} {img : Option Image} (h : ∀ j, img = some j → j.wf p = true) :
    (Instr.dispSubmitstatus img).wf p = true := by
  cases img with
  | none => rfl
  | some j => exact h j rfl

theorem Instr.wf_dispSubmitframe {p : Params} {img : Option Image} (h : ∀ j, img = some j → j.wf p = true) :
    (Instr.dispSubmitframe img).wf p = true := by
  cases img with
  | none => rfl
  | some j => exact h j rfl

/-- What the decoder accepts: the opcode, the operand bits and the payload are the command's, and the command is well formed. -/
theorem decode_ok {p : Params} {w : Word} {pl : Payload} {i : Instr} (h : decode p w pl = .ok i) :
    field w 31 24 = i.opcode ∧ field w 23 0 = i.operandBits ∧ pl = i.payload ∧ i.wf p = true := by
  unfold decode at h
  split at h
  case h_13 => cases h
  case h_2 ho =>
    obtain ⟨hres, rfl, rfl⟩ := decodeBare_ok h
    refine ⟨ho, ?_, rfl, rfl⟩
    simp only [Instr.operandBits, slotField, BitVec.toNat_ofNat, field] at hres ⊢
    omega
  case h_3 ho =>
    obtain ⟨hres, rfl, rfl⟩ := decodeBare_ok h
    refine ⟨ho, ?_, rfl, rfl⟩
    simp only [Instr.operandBits, slotField, field] at hres ⊢
    omega
  case h_5 ho =>
    obtain ⟨hres, rfl, rfl⟩ := decodeBare_ok h
    refine ⟨ho, ?_, rfl, rfl⟩
    simp only [Instr.operandBits, BitVec.toNat_ofNat, field] at hres ⊢
    omega
  case h_6 ho =>
    have hle := Machine.count_le_of_decodeCount_ok h
    obtain ⟨hres, rfl, rfl⟩ := decodeCount_ok h
    refine ⟨ho, ?_, rfl, decide_eq_true hle⟩
    simp only [Instr.operandBits, field] at hres ⊢
    omega
  case h_9 ho =>
    obtain ⟨hres, bytes, rfl, rfl⟩ := decodePalette_ok h
    exact ⟨ho, hres, rfl, rfl⟩
  case h_10 ho =>
    obtain ⟨hres, rfl, rfl⟩ := decodeBare_ok h
    refine ⟨ho, ?_, rfl, rfl⟩
    simp only [Instr.operandBits, BitVec.toNat_ofNat, field] at hres ⊢
    omega
  case h_11 ho =>
    obtain ⟨hres, img, rfl, rfl, hflag, hwf⟩ := decodeImage_ok h
    refine ⟨ho, ?_, rfl, Instr.wf_dispSubmitstatus hwf⟩
    simp only [Instr.operandBits, field] at hres hflag ⊢
    omega
  case h_12 ho =>
    obtain ⟨hres, img, rfl, rfl, hflag, hwf⟩ := decodeImage_ok h
    refine ⟨ho, ?_, rfl, Instr.wf_dispSubmitframe hwf⟩
    simp only [Instr.operandBits, field] at hres hflag ⊢
    omega
  all_goals
    obtain ⟨hres, rfl, rfl⟩ := decodeBare_ok h
    exact ⟨‹_›, hres, rfl, rfl⟩

/-- A word is its opcode and the bits below it. -/
theorem eq_ofNat_fields (w : Word) : BitVec.ofNat 32 (field w 31 24 * 2 ^ 24 + field w 23 0) = w := by
  refine BitVec.eq_of_toNat_eq ?_
  simp only [BitVec.toNat_ofNat, field]
  omega

/-- A pair that decodes is the encoding of the command it decodes to. -/
theorem encode_of_decode {p : Params} {w : Word} {pl : Payload} {i : Instr} (h : decode p w pl = .ok i) :
    encode i = ⟨w, pl⟩ := by
  obtain ⟨hopc, hbits, hpl, -⟩ := decode_ok h
  rw [encode_eq (congrArg₂ (· * 2 ^ 24 + ·) hopc.symm hbits.symm) hpl.symm, eq_ofNat_fields]

/-! ## Encodings that decode -/

/-- Format N leaves W[23:0] at 0, so a command without operands decodes to itself. -/
theorem decodeBare_encode {i : Instr} (h : i.operandBits = 0) :
    decodeBare (field (encode i).word 23 0) .none i = .ok i := by
  rw [encode_field i 23 0 (by decide) (by decide), h, Nat.zero_div, Nat.zero_mod, Machine.decodeBare_zero_none]

theorem decode_encode_muxQuery (p : Params) (id : ButtonId) :
    decode p (encode (.muxQuery id)).word .none = .ok (.muxQuery id) := by
  have hres : field (encode (.muxQuery id)).word 23 8 = 0 := by
    rw [encode_field _ 23 8 (by decide) (by decide), Instr.operandBits]; omega
  have hid : field (encode (.muxQuery id)).word 7 0 = id.toNat := by
    rw [encode_field _ 7 0 (by decide) (by decide), Instr.operandBits]; omega
  simp only [decode, encode_opcode, Instr.opcode, hres, hid, BitVec.ofNat_toNat, BitVec.setWidth_eq,
    Machine.decodeBare_zero_none]

theorem decode_encode_dispSubmitframe (p : Params) (img : Option Image)
    (hwf : (Instr.dispSubmitframe img).wf p = true) :
    decode p (encode (.dispSubmitframe img)).word (imagePayload img) = .ok (.dispSubmitframe img) := by
  simp only [decode, encode_opcode, Instr.opcode]
  exact decodeImage_encode p img _ rfl fun j hj => by subst hj; exact hwf

/-- Every well-formed command's encoding decodes to it. -/
theorem decode_encode (p : Params) (i : Instr) (h : i.wf p = true) :
    decode p (encode i).word (encode i).payload = .ok i := by
  cases i with
  | muxBind slot id => exact Machine.decode_encode_muxBind p slot id
  | muxSetinv slot => exact Machine.decode_encode_muxSetinv p slot
  | muxQuery id => exact decode_encode_muxQuery p id
  | muxReadbits n => exact Machine.decode_encode_muxReadbits p (of_decide_eq_true h)
  | dispSetpal pal => exact decode_encode_dispSetpal p pal
  | dispCfgstatus height => exact decode_encode_dispCfgstatus p height
  | dispSubmitstatus img => exact decode_encode_dispSubmitstatus p img h
  | dispSubmitframe img => exact decode_encode_dispSubmitframe p img h
  | _ =>
    simp only [decode, encode_opcode, Instr.opcode]
    exact decodeBare_encode rfl

/-- A number spells a command when it is the command's opcode above its operand bits. -/
theorem spells_of_number {i : Instr} {w : Nat} (hw : i.opcode * 2 ^ 24 + i.operandBits = w) :
    Machine.Spells i w i.payload :=
  Machine.spells_of_decode_encode hw rfl fun p h => decode_encode p i h

/-- A frame's image sets the flag I. -/
theorem spells_dispSubmitframe_some (img : Image) :
    Machine.Spells (.dispSubmitframe (some img)) 0x14000001 (.image img) :=
  spells_of_number (by rw [Instr.opcode, Instr.operandBits, imageFlag]; rfl)

/-! ## The opcode map's columns match and mask -/

/-- Where every bit from k up is compared, a word matches exactly with the opcode in W[31:24] and 0 from there down to k. -/
theorem and_highMask_eq_iff (w : Word) {k opc : Nat} (hk : k ≤ 24) (hopc : opc < 2 ^ 8) :
    w &&& BitVec.allOnes 32 <<< k = BitVec.ofNat 32 (opc * 2 ^ 24) ↔ field w 31 24 = opc ∧ field w 23 k = 0 := by
  obtain ⟨m, hm⟩ : ∃ m, 24 = k + m := ⟨24 - k, by omega⟩
  have hw : w.toNat / 2 ^ k * 2 ^ k < 2 ^ 32 := lt_of_le_of_lt (Nat.div_mul_le_self _ _) w.isLt
  have hfield : field w 31 24 = w.toNat / 2 ^ k / 2 ^ m := by
    rw [Nat.div_div_eq_div_mul, ← pow_add, ← hm, field]
    omega
  have hlow : field w 23 k = w.toNat / 2 ^ k % 2 ^ m := by rw [field, show 23 + 1 - k = m by omega]
  rw [← BitVec.shiftLeft_ushiftRight, ← BitVec.toNat_inj, BitVec.toNat_shiftLeft, BitVec.toNat_ushiftRight,
    Nat.shiftRight_eq_div_pow, Nat.shiftLeft_eq, Nat.mod_eq_of_lt hw, BitVec.toNat_ofNat,
    Nat.mod_eq_of_lt (by omega), hfield, hlow, hm, Nat.add_comm, pow_add, ← Nat.mul_assoc,
    Nat.mul_left_inj (Nat.two_pow_pos k).ne']
  constructor
  · intro h
    rw [h]
    exact ⟨Nat.mul_div_cancel _ (Nat.two_pow_pos m), Nat.mul_mod_left _ _⟩
  · rintro ⟨h1, h2⟩
    rw [← Nat.div_add_mod (w.toNat / 2 ^ k) (2 ^ m), h1, h2, Nat.add_zero, Nat.mul_comm]

/-- The mask of MUX_SETINV compares W[31:11] and W[7:0]. -/
theorem and_setinvMask_eq_iff (w : Word) :
    w &&& 0xFFFFF8FF = 0x03000000 ↔ w &&& 0xFFFFF800 = 0x03000000 ∧ w &&& 0xFF = 0 := by
  constructor
  · intro e
    refine ⟨?_, ?_⟩
    · rw [show (0xFFFFF800 : Word) = 0xFFFFF8FF &&& 0xFFFFF800 by decide, ← BitVec.and_assoc, e]; rfl
    · rw [show (0xFF : Word) = 0xFFFFF8FF &&& 0xFF by decide, ← BitVec.and_assoc, e]; rfl
  · rintro ⟨e1, e2⟩
    rw [show (0xFFFFF8FF : Word) = 0xFFFFF800 ||| 0xFF by decide, BitVec.and_or_distrib_left, e1, e2]; rfl

theorem and_lowByte_eq_zero_iff (w : Word) : w &&& 0xFF = 0 ↔ field w 7 0 = 0 := by
  rw [← BitVec.toNat_inj, BitVec.toNat_and]
  change w.toNat &&& 2 ^ 8 - 1 = 0 ↔ _
  rw [Nat.and_two_pow_sub_one_eq_mod, field, Nat.pow_zero, Nat.div_one]

end Sys2Proof

namespace Sys2Proof.Machine

/-- The bits of W[23:0] that the opcode's format leaves unassigned, as a number that is 0 when none is set (30_encoding.md R81,
R85). -/
def reservedBits (opcode : Nat) (w : Word) : Nat :=
  match opcode with
  | 0x02 => field w 23 11
  | 0x03 => field w 23 11 + field w 7 0
  | 0x05 => field w 23 8
  | 0x06 => field w 23 6
  | 0x12 => field w 23 16
  | 0x13 => field w 23 1
  | 0x14 => field w 23 1
  | _ => field w 23 0

/-- A row of the opcode map matches a word with its opcode and no reserved bit set. -/
theorem OpcodeRow.matches_iff {r : OpcodeRow} (hr : r ∈ opcodeMap) (w : Word) :
    r.matches w ↔ field w 31 24 = r.opcode ∧ reservedBits r.opcode w = 0 := by
  simp only [opcodeMap, List.mem_cons, List.not_mem_nil, or_false] at hr
  rcases hr with rfl | rfl | rfl | rfl | rfl | rfl | rfl | rfl | rfl | rfl | rfl | rfl
  · exact and_highMask_eq_iff w (k := 0) (opc := 0x01) (by decide) (by decide)
  · exact and_highMask_eq_iff w (k := 11) (opc := 0x02) (by decide) (by decide)
  · have hhigh := and_highMask_eq_iff w (k := 11) (opc := 0x03) (by decide) (by decide)
    rw [reservedBits, Nat.add_eq_zero_iff, ← and_assoc, ← hhigh, ← and_lowByte_eq_zero_iff]
    exact and_setinvMask_eq_iff w
  · exact and_highMask_eq_iff w (k := 0) (opc := 0x04) (by decide) (by decide)
  · exact and_highMask_eq_iff w (k := 8) (opc := 0x05) (by decide) (by decide)
  · exact and_highMask_eq_iff w (k := 6) (opc := 0x06) (by decide) (by decide)
  · exact and_highMask_eq_iff w (k := 0) (opc := 0x07) (by decide) (by decide)
  · exact and_highMask_eq_iff w (k := 0) (opc := 0x10) (by decide) (by decide)
  · exact and_highMask_eq_iff w (k := 0) (opc := 0x11) (by decide) (by decide)
  · exact and_highMask_eq_iff w (k := 16) (opc := 0x12) (by decide) (by decide)
  · exact and_highMask_eq_iff w (k := 1) (opc := 0x13) (by decide) (by decide)
  · exact and_highMask_eq_iff w (k := 1) (opc := 0x14) (by decide) (by decide)

/-- The rows' opcodes are distinct. -/
theorem opcodeMap_opcode_inj : ∀ r ∈ opcodeMap, ∀ r' ∈ opcodeMap, r.opcode = r'.opcode → r = r' := by decide

/-- Every command has a row. -/
theorem opcode_mem_opcodeMap (i : Instr) : i.opcode ∈ opcodeMap.map OpcodeRow.opcode := by
  cases i <;> simp [opcodeMap, Instr.opcode]

/-- The operands of a command leave the reserved bits of its format at 0. -/
theorem reservedBits_eq_zero {i : Instr} {w : Word} (h : field w 23 0 = i.operandBits) :
    reservedBits i.opcode w = 0 := by
  cases i <;> simp only [reservedBits, Instr.opcode, Instr.operandBits, field] at h ⊢
  case dispSubmitstatus img => have := imageFlag_lt img; omega
  case dispSubmitframe img => have := imageFlag_lt img; omega
  all_goals omega

/-- The count of format R is W[5:0]. -/
theorem extractLsb'_count (w : Word) : (w.extractLsb' 0 6).toNat = field w 5 0 := by
  rw [BitVec.extractLsb'_toNat, Nat.shiftRight_zero, field, Nat.pow_zero, Nat.div_one]

/-- The flag of format I is W[0]. -/
theorem getLsbD_flag (w : Word) : w.getLsbD 0 = (field w 0 0).testBit 0 := by
  rw [field_testBit, decide_eq_true (by decide), Bool.true_and]

section
variable {r : OpcodeRow} {p : Params} {w : Word} {pl : Payload}

theorem OpcodeRow.extra_count (h : r.opcode = 0x06) : r.extra p w pl ↔ field w 5 0 ≤ 32 ∧ pl = .none := by
  rw [extra, if_pos h, extractLsb'_count]

theorem OpcodeRow.extra_palette (h : r.opcode = 0x11) : r.extra p w pl ↔ ∃ bytes, pl = .palette bytes := by
  rw [extra, if_neg (by rw [h]; decide), if_pos h]

/-- Format I's condition is that the word and the payload agree on whether there is an image, and that it is well formed. -/
theorem OpcodeRow.extra_image (h : r.opcode = 0x13 ∨ r.opcode = 0x14) :
    r.extra p w pl ↔
      ∃ img, pl = imagePayload img ∧ field w 0 0 = imageFlag img ∧ ∀ j, img = some j → j.wf p = true := by
  have hbit : field w 0 0 < 2 := field_lt w 0 0
  rw [extra, if_neg (by rcases h with h | h <;> rw [h] <;> decide),
    if_neg (by rcases h with h | h <;> rw [h] <;> decide), if_pos h, getLsbD_flag]
  constructor
  · rintro (⟨hset, img, rfl, hwf⟩ | ⟨hclear, rfl⟩)
    · refine ⟨some img, rfl, ?_, fun j hj => Option.some.inj hj ▸ hwf⟩
      interval_cases field w 0 0
      · cases hset
      · rfl
    · refine ⟨none, rfl, ?_, fun _ hj => nomatch hj⟩
      interval_cases field w 0 0
      · rfl
      · cases hclear
  · rintro ⟨_ | img, rfl, hflag, hwf⟩
    · exact .inr ⟨by rw [hflag]; rfl, rfl⟩
    · exact .inl ⟨by rw [hflag]; exact Nat.testBit_one_zero, img, rfl, hwf img rfl⟩

/-- Every other row's condition is that there is no payload. -/
theorem OpcodeRow.extra_bare (h : r.opcode ∉ [0x06, 0x11, 0x13, 0x14]) : r.extra p w pl ↔ pl = .none := by
  simp only [List.mem_cons, List.not_mem_nil, or_false, not_or] at h
  obtain ⟨h6, h11, h13, h14⟩ := h
  rw [extra, if_neg h6, if_neg h11, if_neg (by simp [h13, h14])]

/-- A command that decodes meets its row's extra condition. -/
theorem OpcodeRow.extra_of_decode {i : Instr} (hr : r.opcode = i.opcode) (h : decode p w pl = .ok i) :
    r.extra p w pl := by
  obtain ⟨-, hbits, rfl, hwf⟩ := decode_ok h
  cases i with
  | muxReadbits n =>
    refine (extra_count hr).2 ⟨?_, rfl⟩
    have hn : n ≤ 32 := of_decide_eq_true hwf
    simp only [Instr.operandBits, field] at hbits ⊢
    omega
  | dispSetpal pal => exact (extra_palette hr).2 ⟨pal, rfl⟩
  | dispSubmitstatus img =>
    refine (extra_image (.inl hr)).2 ⟨img, rfl, ?_, fun j hj => by subst hj; exact hwf⟩
    have := imageFlag_lt img
    simp only [Instr.operandBits, field] at hbits ⊢
    omega
  | dispSubmitframe img =>
    refine (extra_image (.inr hr)).2 ⟨img, rfl, ?_, fun j hj => by subst hj; exact hwf⟩
    have := imageFlag_lt img
    simp only [Instr.operandBits, field] at hbits ⊢
    omega
  | _ => exact (extra_bare (by rw [hr, Instr.opcode]; decide)).2 rfl

theorem decodeBare_eq_ok {reserved : Nat} (i : Instr) (hres : reserved = 0) (hpl : pl = .none) :
    decodeBare reserved pl i = .ok i := by
  subst hres hpl
  rfl

theorem decodeImage_eq_ok {img : Option Image} (mk : Option Image → Instr) (hres : field w 23 1 = 0)
    (hflag : field w 0 0 = imageFlag img) (hwf : ∀ j, img = some j → j.wf p = true) :
    decodeImage p w (imagePayload img) mk = .ok (mk img) := by
  cases img with
  | none => simp [decodeImage, hres, hflag, imageFlag, imagePayload]
  | some j => simp [decodeImage, hres, hflag, imageFlag, imagePayload, hwf j rfl]

/-- A word that selects a row decodes to a command of that row. -/
theorem OpcodeRow.decode_of_matches (hr : r ∈ opcodeMap) (hm : r.matches w) (hx : r.extra p w pl) :
    ∃ i, decode p w pl = .ok i ∧ i.opcode = r.opcode := by
  obtain ⟨ho, hres⟩ := (matches_iff hr w).1 hm
  simp only [opcodeMap, List.mem_cons, List.not_mem_nil, or_false] at hr
  rcases hr with rfl | rfl | rfl | rfl | rfl | rfl | rfl | rfl | rfl | rfl | rfl | rfl <;>
    simp only [reservedBits] at hres <;> simp only [decode, ho]
  · exact ⟨_, decodeBare_eq_ok _ hres ((extra_bare (by decide)).1 hx), rfl⟩
  · exact ⟨_, decodeBare_eq_ok _ hres ((extra_bare (by decide)).1 hx), rfl⟩
  · exact ⟨_, decodeBare_eq_ok _ hres ((extra_bare (by decide)).1 hx), rfl⟩
  · exact ⟨_, decodeBare_eq_ok _ hres ((extra_bare (by decide)).1 hx), rfl⟩
  · exact ⟨_, decodeBare_eq_ok _ hres ((extra_bare (by decide)).1 hx), rfl⟩
  · obtain ⟨hle, rfl⟩ := (extra_count rfl).1 hx
    exact ⟨_, by rw [decodeCount, if_neg (not_not.2 hres), if_neg (Nat.not_lt.2 hle), decodeBare_zero_none], rfl⟩
  · exact ⟨_, decodeBare_eq_ok _ hres ((extra_bare (by decide)).1 hx), rfl⟩
  · exact ⟨_, decodeBare_eq_ok _ hres ((extra_bare (by decide)).1 hx), rfl⟩
  · obtain ⟨bytes, rfl⟩ := (extra_palette rfl).1 hx
    exact ⟨_, by rw [decodePalette, if_neg (not_not.2 hres)], rfl⟩
  · exact ⟨_, decodeBare_eq_ok _ hres ((extra_bare (by decide)).1 hx), rfl⟩
  · obtain ⟨img, rfl, hflag, hwf⟩ := (extra_image (.inl rfl)).1 hx
    exact ⟨_, decodeImage_eq_ok _ hres hflag hwf, rfl⟩
  · obtain ⟨img, rfl, hflag, hwf⟩ := (extra_image (.inr rfl)).1 hx
    exact ⟨_, decodeImage_eq_ok _ hres hflag hwf, rfl⟩

end

end Sys2Proof.Machine

namespace Sys2Proof.Proofs

open Sys2Proof.Machine

/-- Settles O1: command by command, the fields of the encoded word are read back. -/
theorem decodeInvertsEncode : Obligations.DecodeInvertsEncode := decode_encode

/-- Settles O2: a decoded command has the word's opcode and operand bits and the payload it came with. -/
theorem encodeInvertsDecode : Obligations.EncodeInvertsDecode := by
  intro p w pl i h
  obtain ⟨-, -, -, hwf⟩ := decode_ok h
  exact ⟨encode_of_decode h, hwf⟩

/-- Settles O3: a row matches with its opcode and no reserved bit, which is what the decoder tests; opcodes name the rows. -/
theorem decoderFollowsOpcodeMap : Obligations.DecoderFollowsOpcodeMap := by
  refine ⟨fun p w pl i h => ?_, fun p w pl r hr hm hx => OpcodeRow.decode_of_matches hr hm hx,
    fun w r hr r' hr' hm hm' => ?_⟩
  · obtain ⟨r, hr, hopc⟩ := List.mem_map.1 (opcode_mem_opcodeMap i)
    obtain ⟨ho, hbits, -, -⟩ := decode_ok h
    refine ⟨r, hr, hopc, (OpcodeRow.matches_iff hr w).2 ⟨ho.trans hopc.symm, ?_⟩, OpcodeRow.extra_of_decode hopc h⟩
    rw [hopc]
    exact reservedBits_eq_zero hbits
  · obtain ⟨ho, -⟩ := (OpcodeRow.matches_iff hr w).1 hm
    obtain ⟨ho', -⟩ := (OpcodeRow.matches_iff hr' w).1 hm'
    exact opcodeMap_opcode_inj r hr r' hr' (ho.symm.trans ho')

/-- Settles O4: each worked word is its command's opcode above its operand bits. -/
theorem workedEncodingsDecode : Obligations.WorkedEncodingsDecode := fun p =>
  ⟨(spells_of_number (i := .muxBind 3 7) rfl).2 p rfl, (spells_of_number (i := .muxSetinv 3) rfl).2 p rfl,
    (spells_of_number (i := .muxQuery 7) rfl).2 p rfl, (spells_of_number (i := .muxReadbits 17) rfl).2 p rfl,
    (spells_of_number (i := .muxReadbits 8) rfl).2 p rfl, (spells_of_number (i := .dispCfgstatus 8) rfl).2 p rfl,
    (spells_of_number (i := .dispSubmitframe none) rfl).2 p rfl, fun img h =>
      ⟨(spells_dispSubmitframe_some img).2 p h, (dispSubmitstatusKeepsTheLast.2.1 img).2 p h⟩⟩

end Sys2Proof.Proofs
end

section
/-! PROOFS. The agents' turns: what one step is on each agent's turn, and the reset (00_scope.md R12,
70_reset_and_hazards.md R210). -/

namespace Sys2Proof.Machine

/-! ## The environment of a turn -/

/-- A listed turn is used up, an unlisted one uses up a free value (log 2). -/
theorem Env.afterTurn_eq (e : Env) :
    e.afterTurn = { e with
      sched := e.sched.tail
      freeCount := if e.sched = [] then e.freeCount + 1 else e.freeCount } := by
  unfold Env.afterTurn
  split
  · rename_i h; simp [h]
  · rename_i h; simp [h]

@[simp] theorem Env.afterTurn_samples (e : Env) : e.afterTurn.samples = e.samples := by rw [Env.afterTurn_eq]

/-! ## The step of each agent -/

section
variable {s : State}

theorem step_tick (ha : s.env.agent = .tick) : step s = tickStep s.afterTurn := by rw [step, ha, agentStep]
theorem step_dsp (ha : s.env.agent = .dsp) : step s = dspStep s.afterTurn := by rw [step, ha, agentStep]
theorem step_xfer (ha : s.env.agent = .xfer) : step s = xferStep s.afterTurn := by rw [step, ha, agentStep]

/-- The host's turn presents its first pending pair in the state with the turn and the pair taken. -/
theorem step_host {c : Command} {rest : List Command} (ha : s.env.agent = .host) (hc : s.env.cmds = c :: rest) :
    step s = present c s.afterTurn.takeCommand := by
  have hc' : s.afterTurn.env.cmds = c :: rest := by rw [State.afterTurn_env, Env.afterTurn_cmds, hc]
  rw [step, ha, agentStep, hostStep, hc']

/-- The host's turn with no pair pending changes no element. -/
theorem step_host_idle (hf : s.fault = none) (ha : s.env.agent = .host) (hc : s.env.cmds = []) :
    step s = .next s.afterTurn := by
  have hc' : s.afterTurn.env.cmds = [] := by rw [State.afterTurn_env, Env.afterTurn_cmds, hc]
  rw [step, ha, agentStep, hostStep, hc']
  exact whenRunning_running (s := s.afterTurn) hf _

theorem present_ok {c : Command} {i : Instr} (h : decode s.env.params c.word c.payload = .ok i) :
    present c s = exec i s := by
  rw [present, h]

theorem present_error {c : Command} {e : Illegal} (hf : s.fault = none)
    (h : decode s.env.params c.word c.payload = .error e) : present c s = .next s.refuse := by
  rw [present, h]
  exact whenRunning_running hf _

theorem tickStep_on (hc : s.mux.constructed = true) (he : s.mux.enabled = true) : tickStep s = exec .muxTick s := by
  rw [tickStep, hc, he]
  rfl

theorem tickStep_off (hf : s.fault = none) (h : s.mux.constructed = false ∨ s.mux.enabled = false) :
    tickStep s = .next s := by
  rw [tickStep, if_neg (by simpa using fun hc => h.resolve_left (by simp [hc])), whenRunning_running hf]

theorem xferStep_busy (hf : s.fault = none) (hb : s.xfer.busy = true) :
    xferStep s = .next { s with xfer := ⟨false, none⟩, qtrace := s.qtrace ++ [.done] } := by
  rw [xferStep, whenRunning_running hf, if_pos hb]
  rfl

theorem xferStep_free (hf : s.fault = none) (hb : s.xfer.busy = false) : xferStep s = .next s := by
  rw [xferStep, whenRunning_running hf, if_neg (by simp [hb])]

@[simp] theorem State.afterTurn_takeCommand_params : s.afterTurn.takeCommand.env.params = s.env.params :=
  Env.afterTurn_params s.env

/-- The state in which the host's turn presents its first pair, element by element. -/
theorem State.afterTurn_takeCommand {c : Command} {rest : List Command} (hc : s.env.cmds = c :: rest) :
    s.afterTurn.takeCommand = { s with env := { s.env with
      cmds := rest
      sched := s.env.sched.tail
      freeCount := if s.env.sched = [] then s.env.freeCount + 1 else s.env.freeCount } } := by
  simp only [State.takeCommand, State.afterTurn, Env.afterTurn_eq, hc, List.tail_cons]

end

end Sys2Proof.Machine

namespace Sys2Proof.Proofs

open Sys2Proof.Machine

/-- Settles O5: the host's turn presents the pair, and presenting a pair that decodes runs it. -/
theorem stepRunsDecodedCommand : Obligations.StepRunsDecodedCommand := by
  intro s c rest i _ ha hc hd
  rw [step_host ha hc, present_ok (by rw [State.afterTurn_takeCommand_params, hd]),
    State.afterTurn_takeCommand hc]

/-- Settles O6: a pair that decodes is the encoding of a well-formed command, so a pair that is none is refused. -/
theorem stepRefusesWhatSpellsNothing : Obligations.StepRefusesWhatSpellsNothing := by
  intro s c rest hf ha hc hnone
  rw [step_host ha hc]
  cases hd : decode s.env.params c.word c.payload with
  | ok i =>
    obtain ⟨-, -, -, hwf⟩ := decode_ok hd
    exact absurd (encode_of_decode hd) (hnone i hwf)
  | error e =>
    rw [present_error (s := s.afterTurn.takeCommand) hf (by rw [State.afterTurn_takeCommand_params, hd]),
      State.afterTurn_takeCommand hc]
    rfl

/-- Settles O7: the tick source's turn is MUX_TICK exactly while the scanner is constructed and enabled. -/
theorem tickSourceDeliversMuxTick : Obligations.TickSourceDeliversMuxTick :=
  fun s hf ha => ⟨fun hc he => (step_tick ha).trans (tickStep_on (s := s.afterTurn) hc he),
    fun h => (step_tick ha).trans (tickStep_off (s := s.afterTurn) hf h)⟩

/-- Settles O8: a completion is the transfer engine's whole turn. -/
theorem transferCompletes : Obligations.TransferCompletes :=
  fun _ hf => ⟨xferStep_busy hf, xferStep_free hf, step_xfer⟩

/-- Settles O12: at reset nothing is constructed, nothing is in flight and the traces are empty. -/
theorem resetMeetsInv : Obligations.ResetMeetsInv where
  bufferForm := ⟨.nil, fun _ h => nomatch h⟩
  bufferSize := rfl
  enabledConstructed h := nomatch h
  displayOverScanner h := by rcases h with h | h <;> cases h
  bootUnconstructed h := nomatch h
  submittingConstructed h := nomatch h
  guardInSequence _ := rfl
  heightBound := le_rfl
  doubleFull _ := rfl
  frameLatched h := nomatch h
  statusKept _ h := nomatch h
  statusPending h := by rcases h with h | h <;> cases h
  statusSent h := nomatch h
  recordInFlight := rfl
  traceSerial := rfl
  scannerPins := rfl
  displayPins h := nomatch h
  traceEmpty _ := rfl
  windowCurrent h := nomatch h

/-- Settles O13: the state after a reset holds the reset values whatever the environment. -/
theorem resetGivesResetValues : Obligations.ResetGivesResetValues :=
  ⟨rfl, fun _ => ⟨rfl, rfl, rfl, rfl, rfl, rfl, rfl, rfl, rfl, rfl, rfl⟩⟩

end Sys2Proof.Proofs
end

section
/-! PROOFS. The sequencer's steps, one by one: waiting, discovery with bring-up, SF_W1, SF_W2 and SF_W3
(41_display.md R141, R142, R161–R167). -/

namespace Sys2Proof.Machine

/-! ## The staging buffer after a copy -/

/-- The buffer once bytes have been copied to offset 0. -/
def Memory.staged (m : Memory) (bytes : List Byte) : Memory := { m with cells := insertCells 0 bytes m.cells }

@[simp] theorem Memory.staged_size (m : Memory) (bytes : List Byte) : (m.staged bytes).size = m.size := rfl

theorem Memory.readByte_staged (m : Memory) (bytes : List Byte) (a : Nat) :
    (m.staged bytes).readByte a = if a < bytes.length then bytes[a]? else m.readByte a := by
  simpa [Memory.readByte, Memory.staged] using lookup_insertCells 0 bytes m.cells a

theorem Memory.readByte_staged_of_lt (m : Memory) {bytes : List Byte} {a : Nat} (h : a < bytes.length) :
    (m.staged bytes).readByte a = bytes[a]? := by
  rw [Memory.readByte_staged, if_pos h]

theorem Memory.readByte_staged_of_le (m : Memory) {bytes : List Byte} {a : Nat} (h : bytes.length ≤ a) :
    (m.staged bytes).readByte a = m.readByte a := by
  rw [Memory.readByte_staged, if_neg (Nat.not_lt.2 h)]

/-! ## The dimension checks -/

theorem frameDims_iff {d : Dsp} {img : Image} :
    d.frameDims img = true ↔
      img.w.toNat * d.scale = d.width.toNat ∧ img.h.toNat * d.scale = d.displayHeight.toNat := by
  simp only [Dsp.frameDims, Bool.and_eq_true, beq_iff_eq]

theorem statusDims_iff {d : Dsp} {img : Image} :
    d.statusDims img = true ↔ img.w = d.width ∧ img.h.toNat = d.height.toNat - d.displayHeight.toNat := by
  simp only [Dsp.statusDims, Bool.and_eq_true, beq_iff_eq, BitVec.toNat_inj]

/-! ## The steps -/

/-- What step SF_W1 leaves before it goes on to the status phase: the copy, and the send with a dirty palette (41_display.md
R146, R163). -/
def State.afterMainSend (s : State) (img : Image) : State :=
  { s with
    dsp := { s.dsp with newPalette := false, screenBuf := s.dsp.screenBuf.staged img.data, cur := none }
    xfer := ⟨true, some ⟨img.w, img.h, img.data, s.dsp.selectedPalette⟩⟩
    qtrace := s.qtrace ++ [.send ⟨img.w, img.h, img.data, s.dsp.selectedPalette⟩] }

/-- What step SF_W2 leaves: the copy, the status window, and the send without a palette (41_display.md R165). -/
def State.afterStatusSend (s : State) (img : Image) : State :=
  { s with
    dsp := { s.dsp with screenBuf := s.dsp.screenBuf.staged img.data, phase := .sfW3 }
    xfer := ⟨true, some ⟨img.w, img.h, img.data, none⟩⟩
    qtrace := s.qtrace ++ [.setWindow s.dsp.statusWindow, .send ⟨img.w, img.h, img.data, none⟩] }

/-- What step SF_W3 leaves: the main window, and nothing pending (41_display.md R166, R167). -/
def State.afterFinish (s : State) : State :=
  { s with
    dsp := { s.dsp with lastStatus := none, inUpdate := false, phase := .idle }
    qtrace := s.qtrace ++ [.setWindow s.dsp.mainWindow] }

section
variable {s : State} (hf : s.fault = none)
include hf

theorem dspStep_idle (hp : s.dsp.phase = .idle) : dspStep s = .next s := by
  rw [dspStep, whenRunning_running hf, hp]

theorem dspStep_boot (hp : s.dsp.phase = .boot) : dspStep s = discoveryStep s := by
  rw [dspStep, whenRunning_running hf, hp]

/-- Each awaiting step begins with the test of the transfer engine. -/
theorem dspStep_wait (hs : s.dsp.phase.submitting = true) (hb : s.xfer.busy = true) : dspStep s = .next s := by
  rw [dspStep, whenRunning_running hf]
  cases hp : s.dsp.phase with
  | idle | boot => simp [hp, Phase.submitting] at hs
  | sfW1 => exact if_pos hb
  | sfW2 => exact if_pos hb
  | sfW3 => exact if_pos hb

section
variable (hb : s.xfer.busy = false)
include hb

theorem dspStep_sfW1 {img : Image} (hp : s.dsp.phase = .sfW1) (hcur : s.dsp.cur = some img)
    (hlen : img.data.length = s.env.params.imgBytes img.w.toNat img.h.toNat)
    (hsize : img.data.length ≤ s.dsp.screenBuf.size) : dspStep s = .next (s.afterMainSend img).statusPhase := by
  rw [dspStep, whenRunning_running hf, hp]
  simp only [sfW1Step, hb, hcur, stageImage_total _ _ _ hlen hsize, Bool.false_eq_true, if_false]
  rfl

section
variable {img : Image} (hp : s.dsp.phase = .sfW2) (hl : s.dsp.lastStatus = some img)
include hp hl

theorem dspStep_badDepth (hbpp : img.bpp ≠ 4) : dspStep s = .next (s.raise .statusBpp (.value img.bpp)) := by
  rw [dspStep, whenRunning_running hf, hp]
  simp only [sfW2Step, hb, hl, Bool.false_eq_true, if_false, if_pos hbpp]

theorem dspStep_badDims (hbpp : img.bpp = 4) (hdims : s.dsp.statusDims img = false) :
    dspStep s = .next (s.raise .statusDim (.dims img.w img.h)) := by
  rw [dspStep, whenRunning_running hf, hp]
  simp only [sfW2Step, hb, hl, Bool.false_eq_true, if_false, if_neg (not_not.2 hbpp), hdims, Bool.not_false, if_true]

theorem dspStep_sfW2 (hbpp : img.bpp = 4) (hdims : s.dsp.statusDims img = true)
    (hlen : img.data.length = s.env.params.imgBytes img.w.toNat img.h.toNat)
    (hsize : img.data.length ≤ s.dsp.screenBuf.size) : dspStep s = .next (s.afterStatusSend img) := by
  rw [dspStep, whenRunning_running hf, hp]
  simp only [sfW2Step, hb, hl, Bool.false_eq_true, if_false, if_neg (not_not.2 hbpp), hdims, Bool.not_true,
    stageImage_total _ _ _ hlen hsize]
  simp [State.panel, State.xferStart, State.afterStatusSend, Memory.staged, Dsp.statusWindow, hl]

end

theorem dspStep_sfW3 (hp : s.dsp.phase = .sfW3) : dspStep s = .next s.afterFinish := by
  rw [dspStep, whenRunning_running hf, hp]
  simp only [sfW3Step, hb, Bool.false_eq_true, if_false]
  rfl

end

/-- Discovery on a disabled scanner stops at the read, after the pulse on RST. -/
theorem dspStep_discovery_disabled (hp : s.dsp.phase = .boot) (he : s.mux.enabled = false) :
    dspStep s = .next ((s.pulse .rst).raise .readDisabled .none) := by
  rw [dspStep_boot hf hp, discoveryStep, State.readBits_disabled (s := s.pulse .rst) he]

/-- Discovery on an enabled scanner decides by the 17-bit code it read. -/
theorem dspStep_discovery_enabled (hp : s.dsp.phase = .boot) (he : s.mux.enabled = true) {code : IdCode}
    (hcode : code = (bitsValue (s.env.levels 17)).setWidth 17) :
    dspStep s =
      if code = disconnected then
        .next (((s.pulse .rst).afterRead 17).raise .displayNotFound (.value code.toNat))
      else if code = 0 then .next ((s.pulse .rst).afterRead 17)
      else .next (((s.pulse .rst).afterRead 17).bringUp code) := by
  subst hcode
  rw [dspStep_boot hf hp, discoveryStep, State.readBits_enabled (s := s.pulse .rst) he]
  rfl

end

/-- A pulse on RST leaves it high, and two records. -/
theorem State.pulse_rst (s : State) :
    s.pulse .rst = { s with
      pins := { s.pins with rst := .out true }
      ptrace := s.ptrace ++ [.pin .rst (.out false), .pin .rst (.out true)] } := by
  simp [State.pulse, State.pinWrite, State.drivePin, Pins.withMode]

/-- The status phase with an image pending outside double-size mode. -/
theorem State.statusPhase_pending {s : State} (hl : s.dsp.lastStatus ≠ none) (hd : s.dsp.doubleSize = false) :
    s.statusPhase = { s with dsp := { s.dsp with phase := .sfW2 } } := by
  rw [State.statusPhase, if_pos (by simp [Option.isSome_iff_ne_none, hl, hd])]

theorem State.statusPhase_finish {s : State} (h : s.dsp.lastStatus = none ∨ s.dsp.doubleSize = true) :
    s.statusPhase = s.finish := by
  rw [State.statusPhase, if_neg (by rcases h with h | h <;> simp [h])]

end Sys2Proof.Machine

namespace Sys2Proof.Proofs

open Sys2Proof.Machine

/-- Settles O52: each awaiting step begins with the test of the transfer engine. -/
theorem awaitingStepsWait : Obligations.AwaitingStepsWait :=
  fun _ hf => ⟨fun hb hs => dspStep_wait hf hs hb, dspStep_idle hf, step_dsp⟩

/-- Settles O36: the three outcomes of the code, after the pulse's two records and the read's 53. -/
theorem discoveryReadsUntilAnIdentity : Obligations.DiscoveryReadsUntilAnIdentity := by
  intro s hf hp
  refine ⟨fun he => ?_, fun he code r hcode hr => ?_⟩
  · rw [dspStep_discovery_disabled hf hp he, State.pulse_rst]
    rfl
  · have hread : (s.pulse .rst).afterRead 17 = r := by
      rw [hr, State.pulse_rst]
      rfl
    rw [dspStep_discovery_enabled hf hp he hcode, hread]
    refine ⟨?_, fun h => ?_, fun h => ?_, fun h0 h1 => ?_⟩
    · simp [hr]
    · subst h; rfl
    · subst h; rfl
    · rw [if_neg (show ¬ code = disconnected from h1), if_neg h0]

/-- Settles O37: bring-up, with the sixteen values the palette happens to get. -/
theorem bringUpProgramsThePanel : Obligations.BringUpProgramsThePanel := by
  rintro s v cfg rfl
  exact ⟨freePalette s.env.freeCount, s.bringUp_eq v⟩

/-- Settles O48: the buffer is the staged one, and what follows is decided by the status phase. -/
theorem mainFrameStepCopiesAndSends : Obligations.MainFrameStepCopiesAndSends := by
  intro s img len rec hf hp hb hcur hlen hdata hsize hrec
  subst hlen hrec
  refine ⟨s.dsp.screenBuf.staged img.data, rfl, fun a ha => Memory.readByte_staged_of_lt _ (hdata ▸ ha),
    fun a ha => Memory.readByte_staged_of_le _ (hdata ▸ ha), fun hl hd => ?_, fun h => ?_⟩ <;>
    rw [dspStep_sfW1 hf hb hp hcur hdata (hdata ▸ hsize)]
  · rw [State.statusPhase_pending (s := s.afterMainSend img) hl hd]
    rfl
  · rw [State.statusPhase_finish (s := s.afterMainSend img) h]
    rfl

/-- Settles O49: the image passes both checks of SF_W2, and the buffer is the staged one. -/
theorem statusStepCopiesAndSends : Obligations.StatusStepCopiesAndSends := by
  intro s img len rec hf hp hb hl hbpp hw hh hlen hdata hsize hrec
  subst hlen hrec
  refine ⟨s.dsp.screenBuf.staged img.data, rfl, fun a ha => Memory.readByte_staged_of_lt _ (hdata ▸ ha),
    fun a ha => Memory.readByte_staged_of_le _ (hdata ▸ ha), ?_⟩
  rw [dspStep_sfW2 hf hb hp hl hbpp (statusDims_iff.2 ⟨hw, hh⟩) hdata (hdata ▸ hsize)]
  rfl

/-- Settles O50: the depth is checked before the dimensions. -/
theorem statusStepRejectsAMisfit : Obligations.StatusStepRejectsAMisfit := by
  intro s img hf hp hb hl
  refine ⟨fun hbpp => dspStep_badDepth hf hb hp hl hbpp, fun hbpp hmis => dspStep_badDims hf hb hp hl hbpp ?_⟩
  rw [← Bool.not_eq_true, statusDims_iff]
  tauto

/-- Settles O51: step SF_W3 waits, or finishes. -/
theorem finishStepRestoresTheWindow : Obligations.FinishStepRestoresTheWindow :=
  fun _ hf hp => ⟨dspStep_wait hf (by rw [hp]; rfl), fun hb => dspStep_sfW3 hf hb hp⟩

end Sys2Proof.Proofs
end

section
/-! PROOFS. The invariant of the block: every step keeps it (10_state.md, 41_display.md), and from it every step goes on
(20_memory.md R61). -/

namespace Sys2Proof.Machine

/-! ## The command a turn presents -/

theorem State.presented_eq_some {s : State} {i : Instr} (h : s.presented = some i) :
    ∃ c rest, s.env.agent = .host ∧ s.env.cmds = c :: rest ∧ decode s.env.params c.word c.payload = .ok i := by
  unfold State.presented at h
  split at h
  · rename_i c rest ha hc
    cases hd : decode s.env.params c.word c.payload with
    | ok j => rw [hd] at h; cases h; exact ⟨c, rest, ha, hc, hd⟩
    | error e => rw [hd] at h; cases h
  · cases h

theorem State.wf_of_presented {s : State} {i : Instr} (h : s.presented = some i) : i.wf s.env.params = true := by
  obtain ⟨c, rest, -, -, hd⟩ := State.presented_eq_some h
  obtain ⟨-, -, -, hwf⟩ := decode_ok hd
  exact hwf

/-! ## The views of a longer QTRACE -/

@[simp] theorem panelWindow_append_setWindow (tr : List PanelRec) (w : Window) :
    panelWindow (tr ++ [.setWindow w]) = some w := by
  simp [panelWindow_append, panelWindow]

@[simp] theorem panelWindow_append_send (tr : List PanelRec) (r : SendRec) :
    panelWindow (tr ++ [.send r]) = panelWindow tr := by
  simp [panelWindow_append, panelWindow]

@[simp] theorem panelWindow_append_done (tr : List PanelRec) : panelWindow (tr ++ [.done]) = panelWindow tr := by
  simp [panelWindow_append, panelWindow]

@[simp] theorem panelWindow_append_setWindow_send (tr : List PanelRec) (w : Window) (r : SendRec) :
    panelWindow (tr ++ [.setWindow w, .send r]) = some w := by
  simp [panelWindow_append, panelWindow]

section
variable {tr : List PanelRec} {now : Option SendRec}

theorem traceTransfer_append_setWindow (h : traceTransfer tr none = some now) (w : Window) :
    traceTransfer (tr ++ [.setWindow w]) none = some now := by
  rw [traceTransfer_append, h]
  cases now <;> rfl

theorem traceTransfer_append_send (h : traceTransfer tr none = some none) (r : SendRec) :
    traceTransfer (tr ++ [.send r]) none = some (some r) := by
  rw [traceTransfer_append, h]
  rfl

theorem traceTransfer_append_setWindow_send (h : traceTransfer tr none = some none) (w : Window) (r : SendRec) :
    traceTransfer (tr ++ [.setWindow w, .send r]) none = some (some r) := by
  rw [traceTransfer_append, h]
  rfl

theorem traceTransfer_append_done (h : traceTransfer tr none = some now) (hsome : now.isSome = true) :
    traceTransfer (tr ++ [.done]) none = some none := by
  obtain ⟨r, rfl⟩ := Option.isSome_iff_exists.1 hsome
  rw [traceTransfer_append, h]
  rfl

end

/-! ## The scanner, once it has been ensured -/

@[simp] theorem State.ensureMux_dsp (s : State) : s.ensureMux.dsp = s.dsp := by
  rcases s.ensureMux_cases with ⟨-, e⟩ | ⟨-, e⟩ <;> rw [e]
  rw [State.constructMux_dsp]

@[simp] theorem State.ensureMux_constructed (s : State) : s.ensureMux.mux.constructed = true := by
  rcases s.ensureMux_cases with ⟨hc, e⟩ | ⟨-, e⟩ <;> rw [e]
  · exact hc
  · rw [State.constructMux_mux]

theorem readPins_of_primed {pins : Pins} (hlatch : pins.latch = .out true) (hclk : pins.clk = .out true) (n : Nat) :
    readPins pins n = pins := by
  obtain ⟨latch, clk, data, rst, bl⟩ := pins
  cases hlatch
  cases hclk
  exact ite_self _

theorem Memory.write_size {m m' : Memory} {a n : Nat} {bytes : List Byte} (h : m.write a n bytes = .ok m') :
    m'.size = m.size := by
  obtain ⟨-, -, rfl⟩ := Memory.write_ok h
  rfl

/-! ## What the invariant says of a state -/

namespace Inv

section
variable {s t : State} (h : Inv s)
include h

/-- The invariant speaks of the display, the transfer engine, QTRACE, the parameters, the pins, the two bits of the scanner's
construction, and of FAULT only where there is none. -/
theorem of_agree (hfault : t.fault = none → s.fault = none) (hdsp : t.dsp = s.dsp := by simp)
    (hxfer : t.xfer = s.xfer := by simp) (hqtrace : t.qtrace = s.qtrace := by simp)
    (hparams : t.env.params = s.env.params := by simp) (hpins : t.pins = s.pins := by simp)
    (hcon : t.mux.constructed = s.mux.constructed := by simp) (hen : t.mux.enabled = s.mux.enabled := by simp) :
    Inv t where
  bufferForm := by rw [hdsp]; exact h.bufferForm
  bufferSize := by rw [hdsp, hparams]; exact h.bufferSize
  enabledConstructed := by rw [hcon, hen]; exact h.enabledConstructed
  displayOverScanner := by rw [hdsp, hcon]; exact h.displayOverScanner
  bootUnconstructed := by rw [hdsp]; exact h.bootUnconstructed
  submittingConstructed := by rw [hdsp]; exact h.submittingConstructed
  guardInSequence := fun hf => by rw [hdsp]; exact h.guardInSequence (hfault hf)
  heightBound := by rw [hdsp]; exact h.heightBound
  doubleFull := by rw [hdsp]; exact h.doubleFull
  frameLatched := by unfold acceptedFrame; rw [hdsp, hparams]; exact h.frameLatched
  statusKept := by rw [hdsp, hparams]; exact h.statusKept
  statusPending := by rw [hdsp]; exact h.statusPending
  statusSent := by rw [hdsp]; exact h.statusSent
  recordInFlight := by rw [hxfer]; exact h.recordInFlight
  traceSerial := by rw [hqtrace, hxfer]; exact h.traceSerial
  scannerPins := by rw [hpins, hcon, hen]; exact h.scannerPins
  displayPins := by rw [hdsp, hpins]; exact h.displayPins
  traceEmpty := by rw [hdsp, hqtrace]; exact h.traceEmpty
  windowCurrent := by rw [hdsp, hqtrace]; exact h.windowCurrent

theorem afterTurn : Inv s.afterTurn := h.of_agree (fun hf => hf)

theorem takeCommand : Inv s.takeCommand := h.of_agree (fun hf => hf)

/-- FAULT silences the clause on the guard, and is no part of the others. -/
theorem raise (code : FaultCode) (info : FaultInfo) : Inv (s.raise code info) := h.of_agree nofun

/-- The pins of an enabled scanner are primed. -/
theorem primed (he : s.mux.enabled = true) :
    s.pins.latch = .out true ∧ s.pins.clk = .out true ∧ s.pins.data = .inPd := by
  simpa [h.enabledConstructed he, he] using h.scannerPins

/-- A read drives the pins of a primed scanner to where they stand. -/
theorem readPins_eq (he : s.mux.enabled = true) (n : Nat) : readPins s.pins n = s.pins := by
  obtain ⟨hlatch, hclk, -⟩ := h.primed he
  exact readPins_of_primed hlatch hclk n

theorem afterRead (he : s.mux.enabled = true) (n : Nat) : Inv (s.afterRead n) :=
  h.of_agree (fun hf => hf) (hpins := h.readPins_eq he n)

/-- No transfer in flight, no record. -/
theorem record_eq_none (hb : s.xfer.busy = false) : s.xfer.record = none := by
  rw [← Option.not_isSome_iff_eq_none, ← h.recordInFlight, hb]
  simp

/-- No transfer in flight, none open in QTRACE. -/
theorem trace_closed (hb : s.xfer.busy = false) : traceTransfer s.qtrace none = some none := by
  rw [h.traceSerial, h.record_eq_none hb]

/-- In a frame sequence the display, and so the scanner, is constructed. -/
theorem constructed_of_submitting {ph : Phase} (hp : s.dsp.phase = ph) (hs : ph.submitting = true) :
    s.dsp.constructed = true ∧ s.mux.constructed = true := by
  have hc := h.submittingConstructed (by rw [hp, hs])
  exact ⟨hc, h.displayOverScanner (.inl hc)⟩

/-- The panel's window is the main window except during a status send. -/
theorem window_main (hc : s.dsp.constructed = true) (hp : s.dsp.phase ≠ .sfW3) :
    panelWindow s.qtrace = some s.dsp.mainWindow :=
  (h.windowCurrent hc).trans (by rw [if_neg hp])

/-! ## Commands of the scanner -/

/-- Construction primes the scanner. -/
theorem constructMux : Inv s.constructMux :=
  { h with
    enabledConstructed := fun _ => rfl
    displayOverScanner := fun _ => rfl
    scannerPins := rfl }

theorem ensureMux : Inv s.ensureMux := by
  rcases s.ensureMux_cases with ⟨-, e⟩ | ⟨-, e⟩ <;> rw [e]
  exacts [h, h.constructMux]

/-- Disabling releases the pins of the scanner. -/
theorem disable (hc : s.mux.constructed = true) :
    Inv { s with
      mux := { s.mux with enabled := false }
      pins := { s.pins with latch := .neutral, clk := .neutral, data := .neutral }
      ptrace := s.ptrace ++ [.pin .latch .neutral, .pin .clk .neutral, .pin .data .neutral] } :=
  { h with
    enabledConstructed := nofun
    scannerPins := by rw [hc]; rfl }

/-! ## Commands of the display -/

/-- Entering BOOT over a constructed scanner. -/
theorem enterBoot (hm : s.mux.constructed = true) (hc : s.dsp.constructed = false) (hp : s.dsp.phase = .idle) :
    Inv { s with dsp := { s.dsp with phase := .boot } } :=
  { h with
    displayOverScanner := fun _ => hm
    bootUnconstructed := fun _ => hc
    submittingConstructed := nofun
    guardInSequence := fun hf => (h.guardInSequence hf).trans (by rw [hp]; rfl)
    frameLatched := nofun
    statusPending := by rintro (hx | hx) <;> cases hx
    statusSent := nofun
    windowCurrent := fun hx => by simp [hc] at hx }

theorem setBar (bar : Dim) (hc : s.dsp.constructed = true) (hp : s.dsp.phase = .idle) (hd : s.dsp.doubleSize = false)
    (hle : bar.toNat ≤ s.dsp.height.toNat) : Inv (s.setBar bar) :=
  { h with
    heightBound := by
      change (s.dsp.height - bar).toNat ≤ s.dsp.height.toNat
      rw [BitVec.toNat_sub_of_le hle]
      exact Nat.sub_le _ _
    doubleFull := fun hx => by simp [hd] at hx
    frameLatched := fun hx => by simp [hp] at hx
    statusSent := fun hx => by simp [hp] at hx
    traceSerial := traceTransfer_append_setWindow h.traceSerial _
    traceEmpty := fun hx => by simp [hc] at hx
    windowCurrent := fun _ => by simp [hp] }

theorem storeStatus {img : Image} (hp : s.dsp.phase = .idle) (hok : pendingStatusOk s.env.params img) :
    Inv { s with dsp := { s.dsp with lastStatus := some img } } :=
  { h with
    statusKept := fun _ hx => Option.some.inj hx ▸ hok
    statusPending := by rintro (hx | hx) <;> simp [hp] at hx
    statusSent := fun hx => by simp [hp] at hx }

/-- A fatal of the acceptance leaves the guard set (log 12). -/
theorem raiseGuarded (code : FaultCode) (info : FaultInfo) :
    Inv (State.raise { s with dsp := { s.dsp with inUpdate := true } } code info) :=
  { h with guardInSequence := nofun }

/-- The acceptance of a frame: the guard, the latch and the phase move together. -/
theorem latchFrame {img : Image} (hc : s.dsp.constructed = true) (hp : s.dsp.phase = .idle)
    (hok : acceptedFrame s img) :
    Inv { s with dsp := { s.dsp with inUpdate := true, cur := some img, phase := .sfW1 } } :=
  { h with
    displayOverScanner := fun _ => h.displayOverScanner (.inl hc)
    bootUnconstructed := nofun
    submittingConstructed := fun _ => hc
    guardInSequence := fun _ => rfl
    frameLatched := fun _ => ⟨img, rfl, hok⟩
    statusPending := by rintro (hx | hx) <;> cases hx
    statusSent := nofun
    windowCurrent := fun _ => (h.window_main hc (by simp [hp])).trans (by rw [if_neg nofun]; rfl) }

/-- The flush of a pending status image. -/
theorem flushStatus (hc : s.dsp.constructed = true) (hp : s.dsp.phase = .idle)
    (hl : s.dsp.lastStatus.isSome = true) (hd : s.dsp.doubleSize = false) :
    Inv { s with dsp := { s.dsp with inUpdate := true, phase := .sfW2 } } :=
  { h with
    displayOverScanner := fun _ => h.displayOverScanner (.inl hc)
    bootUnconstructed := nofun
    submittingConstructed := fun _ => hc
    guardInSequence := fun _ => rfl
    frameLatched := nofun
    statusPending := fun _ => ⟨hl, hd⟩
    statusSent := nofun
    windowCurrent := fun _ => (h.window_main hc (by simp [hp])).trans (by rw [if_neg nofun]; rfl) }

/-- Every move of a well-formed command keeps the invariant. -/
theorem execMove {i : Instr} (hwf : i.wf s.env.params = true) (hm : ExecMove s i t) : Inv t := by
  cases hm with
  | initDone | bindUnbuilt | setinvUnbuilt | disableUnbuilt | tickOff | displayInitDone | displayUnbuilt | barDouble
  | statusNone | statusEmpty | frameDropped | flushNone => exact h
  | readbitsOff | busy | setpalSize | barInFlight | barTooTall => exact h.raise _ _
  | bind | setinv | query | readbitsUnbuilt => exact h.of_agree fun hf => hf
  | init => exact h.constructMux
  | tick _ he => exact (h.afterRead he 8).of_agree fun hf => hf
  | readbits n _ he => exact (h.afterRead he n).of_agree fun hf => hf
  | disable hc => exact h.disable hc
  | displayInit hc hp =>
    have hboot := h.ensureMux.enterBoot s.ensureMux_constructed (by simpa using hc) (by simpa using hp)
    rwa [State.ensureMux_dsp] at hboot
  | setpal => exact { h with }
  | bar bar hc hp _ _ hd hle => exact h.setBar bar hc hp hd hle
  | status img _ hp he => exact h.storeStatus hp ⟨hwf, he⟩
  | frameBpp | frameDim => exact h.raiseGuarded _ _
  | frame img hc hp _ hbpp hdims => exact h.latchFrame hc hp ⟨hbpp, hdims, hwf⟩
  | flush hc hp _ hl hd => exact h.flushStatus hc hp hl hd

/-! ## Steps of the sequencer -/

/-- The pulse on RST in BOOT, when the display's pins are still free. -/
theorem pulseRst (hp : s.dsp.phase = .boot) : Inv (s.pulse .rst) :=
  { h with displayPins := fun hx => by simp [h.bootUnconstructed hp, State.pulse] at hx }

/-- Bring-up writes every element of the display from a configuration record, and the main window into an empty QTRACE. -/
theorem bringUp (hp : s.dsp.phase = .boot) (code : IdCode) : Inv (s.bringUp code) := by
  have hm := h.displayOverScanner (.inr hp)
  have hq := h.traceEmpty (h.bootUnconstructed hp)
  have hrec : some s.xfer.record = some none := by rw [← h.traceSerial, hq]; rfl
  rw [State.bringUp_eq]
  exact
  { h with
    bufferForm := ⟨.nil, fun _ hx => nomatch hx⟩
    bufferSize := rfl
    displayOverScanner := fun _ => hm
    bootUnconstructed := nofun
    submittingConstructed := nofun
    guardInSequence := fun _ => rfl
    heightBound := le_rfl
    doubleFull := fun _ => rfl
    frameLatched := nofun
    statusKept := nofun
    statusPending := by rintro (hx | hx) <;> cases hx
    statusSent := nofun
    traceSerial := by rw [hq, hrec]; rfl
    displayPins := fun _ => ⟨rfl, rfl⟩
    traceEmpty := nofun
    windowCurrent := fun _ => by rw [hq]; rfl }

/-- Step SF_W1 with a status image waiting. -/
theorem mainToStatus {img : Image} {m : Memory} {r : SendRec} (hp : s.dsp.phase = .sfW1) (hb : s.xfer.busy = false)
    (hw : s.dsp.screenBuf.write 0 (s.env.params.imgBytes img.w.toNat img.h.toNat) img.data = .ok m)
    (hl : s.dsp.lastStatus.isSome = true) (hd : s.dsp.doubleSize = false) :
    Inv { s with
      dsp := { s.dsp with newPalette := false, screenBuf := m, cur := none, phase := .sfW2 }
      xfer := ⟨true, some r⟩
      qtrace := s.qtrace ++ [.send r] } := by
  obtain ⟨hc, hm⟩ := h.constructed_of_submitting hp rfl
  exact
  { h with
    bufferForm := Memory.write_wf h.bufferForm hw
    bufferSize := (Memory.write_size hw).trans h.bufferSize
    displayOverScanner := fun _ => hm
    bootUnconstructed := nofun
    submittingConstructed := fun _ => hc
    guardInSequence := fun hf => (h.guardInSequence hf).trans (by rw [hp]; rfl)
    frameLatched := nofun
    statusPending := fun _ => ⟨hl, hd⟩
    statusSent := nofun
    recordInFlight := rfl
    traceSerial := traceTransfer_append_send (h.trace_closed hb) r
    traceEmpty := fun hx => by simp [hc] at hx
    windowCurrent := fun _ => by
      rw [panelWindow_append_send, if_neg nofun]
      exact h.window_main hc (by simp [hp]) }

/-- Step SF_W1 with nothing more to send. -/
theorem mainToEnd {img : Image} {m : Memory} {r : SendRec} (hp : s.dsp.phase = .sfW1) (hb : s.xfer.busy = false)
    (hw : s.dsp.screenBuf.write 0 (s.env.params.imgBytes img.w.toNat img.h.toNat) img.data = .ok m) :
    Inv { s with
      dsp := { s.dsp with newPalette := false, screenBuf := m, cur := none, phase := .idle, inUpdate := false }
      xfer := ⟨true, some r⟩
      qtrace := s.qtrace ++ [.send r] } := by
  obtain ⟨hc, hm⟩ := h.constructed_of_submitting hp rfl
  exact
  { h with
    bufferForm := Memory.write_wf h.bufferForm hw
    bufferSize := (Memory.write_size hw).trans h.bufferSize
    displayOverScanner := fun _ => hm
    bootUnconstructed := nofun
    submittingConstructed := nofun
    guardInSequence := fun _ => rfl
    frameLatched := nofun
    statusPending := by rintro (hx | hx) <;> cases hx
    statusSent := nofun
    recordInFlight := rfl
    traceSerial := traceTransfer_append_send (h.trace_closed hb) r
    traceEmpty := fun hx => by simp [hc] at hx
    windowCurrent := fun _ => by
      rw [panelWindow_append_send, if_neg nofun]
      exact h.window_main hc (by simp [hp]) }

/-- Step SF_W2 with a status image that fits. -/
theorem sendStatus {img : Image} {m : Memory} {r : SendRec} (hp : s.dsp.phase = .sfW2) (hb : s.xfer.busy = false)
    (hl : s.dsp.lastStatus = some img) (hbpp : img.bpp = 4) (hdims : s.dsp.statusDims img = true)
    (hw : s.dsp.screenBuf.write 0 (s.env.params.imgBytes img.w.toNat img.h.toNat) img.data = .ok m) :
    Inv { s with
      dsp := { s.dsp with screenBuf := m, phase := .sfW3 }
      xfer := ⟨true, some r⟩
      qtrace := s.qtrace ++ [.setWindow s.dsp.statusWindow, .send r] } := by
  obtain ⟨hc, hm⟩ := h.constructed_of_submitting hp rfl
  exact
  { h with
    bufferForm := Memory.write_wf h.bufferForm hw
    bufferSize := (Memory.write_size hw).trans h.bufferSize
    displayOverScanner := fun _ => hm
    bootUnconstructed := nofun
    submittingConstructed := fun _ => hc
    guardInSequence := fun hf => (h.guardInSequence hf).trans (by rw [hp]; rfl)
    frameLatched := nofun
    statusPending := fun _ => h.statusPending (.inl hp)
    statusSent := fun _ i hi => by
      obtain rfl : img = i := Option.some.inj (hl.symm.trans hi)
      exact ⟨hbpp, hdims⟩
    recordInFlight := rfl
    traceSerial := traceTransfer_append_setWindow_send (h.trace_closed hb) _ r
    traceEmpty := fun hx => by simp [hc] at hx
    windowCurrent := fun _ => by rw [panelWindow_append_setWindow_send, if_pos rfl]; rfl }

/-- Step SF_W3. -/
theorem finishFrame (hp : s.dsp.phase = .sfW3) :
    Inv { s with
      dsp := { s.dsp with lastStatus := none, inUpdate := false, phase := .idle }
      qtrace := s.qtrace ++ [.setWindow s.dsp.mainWindow] } := by
  obtain ⟨hc, hm⟩ := h.constructed_of_submitting hp rfl
  exact
  { h with
    displayOverScanner := fun _ => hm
    bootUnconstructed := nofun
    submittingConstructed := nofun
    guardInSequence := fun _ => rfl
    frameLatched := nofun
    statusKept := nofun
    statusPending := by rintro (hx | hx) <;> cases hx
    statusSent := nofun
    traceSerial := traceTransfer_append_setWindow h.traceSerial _
    traceEmpty := fun hx => by simp [hc] at hx
    windowCurrent := fun _ => by rw [panelWindow_append_setWindow, if_neg nofun]; rfl }

/-- Every move of the sequencer keeps the invariant. -/
theorem dspMove (hm : DspMove s t) : Inv t := by
  cases hm with
  | idle | wait => exact h
  | noRead hp => exact (h.pulseRst hp).raise _ _
  | lost hp he => exact ((h.pulseRst hp).afterRead he 17).raise _ _
  | retry hp he => exact (h.pulseRst hp).afterRead he 17
  | up code hp he => exact ((h.pulseRst hp).afterRead he 17).bringUp hp code
  | mainToStatus img m hp hb _ hw hl hd => exact h.mainToStatus hp hb hw hl hd
  | mainToEnd img m hp hb _ hw => exact h.mainToEnd hp hb hw
  | badDepth | badDims => exact h.raise _ _
  | status img m hp hb hl hbpp hdims hw => exact h.sendStatus hp hb hl hbpp hdims hw
  | finish hp => exact h.finishFrame hp

/-- A completion closes the transfer in flight. -/
theorem complete (hb : s.xfer.busy = true) :
    Inv { s with xfer := ⟨false, none⟩, qtrace := s.qtrace ++ [.done] } := by
  have hopen : s.xfer.record.isSome = true := by rw [← h.recordInFlight, hb]
  have hq : s.qtrace ≠ [] := fun e => by
    have hclosed : some none = some s.xfer.record := by rw [← h.traceSerial, e]; rfl
    rw [← Option.some.inj hclosed] at hopen
    cases hopen
  exact
  { h with
    recordInFlight := rfl
    traceSerial := traceTransfer_append_done h.traceSerial hopen
    traceEmpty := fun hc => absurd (h.traceEmpty hc) hq
    windowCurrent := fun hc => (panelWindow_append_done _).trans (h.windowCurrent hc) }

/-- Every step keeps the invariant. -/
theorem step (hs : Machine.step s = .next t) : Inv t := by
  obtain ⟨-, hm⟩ := step_moves hs
  cases hm with
  | nothing => exact h.afterTurn
  | exec i _ hpres hm =>
    exact h.afterTurn.takeCommand.execMove (by simpa using State.wf_of_presented hpres) hm
  | refuse => exact h.afterTurn.takeCommand.of_agree fun hf => hf
  | tick _ _ _ _ hm => exact h.afterTurn.execMove rfl hm
  | dsp _ _ hm => exact h.afterTurn.dspMove hm
  | done _ hb => exact h.afterTurn.complete hb

end

end Inv

/-! ## Steps go on -/

section
variable {s : State}

/-- A command stops only on a halted block. -/
theorem exec_next (hf : s.fault = none) (i : Instr) : ∃ t, exec i s = .next t := by
  cases i <;>
    simp only [exec, execMuxInit, execMuxBind, execMuxSetinv, execMuxTick, execMuxQuery, execMuxReadbits, execMuxDisable,
      execDispInit, execDispSetpal, execDispCfgstatus, execDispSubmitstatus, execDispSubmitframe,
      whenRunning_running hf]
  case muxInit => exact ⟨_, rfl⟩
  case muxTick => cases s.readBits 8 <;> dsimp only <;> split_ifs <;> exact ⟨_, rfl⟩
  case muxReadbits n => cases s.readBits n <;> dsimp only <;> split_ifs <;> exact ⟨_, rfl⟩
  case dispSubmitstatus img => cases img <;> dsimp only <;> split_ifs <;> exact ⟨_, rfl⟩
  all_goals split_ifs <;> exact ⟨_, rfl⟩

theorem present_next (hf : s.fault = none) (c : Command) : ∃ t, present c s = .next t := by
  cases hd : decode s.env.params c.word c.payload with
  | ok i => rw [present_ok hd]; exact exec_next hf i
  | error e => exact ⟨_, present_error hf hd⟩

theorem hostStep_next (hf : s.fault = none) : ∃ t, hostStep s = .next t := by
  unfold hostStep
  split
  · exact ⟨s, whenRunning_running hf _⟩
  · exact present_next (s := s.takeCommand) hf _

theorem tickStep_next (hf : s.fault = none) : ∃ t, tickStep s = .next t := by
  unfold tickStep
  split
  · exact exec_next hf _
  · exact ⟨s, whenRunning_running hf _⟩

theorem xferStep_next (hf : s.fault = none) : ∃ t, xferStep s = .next t := by
  cases hb : s.xfer.busy
  · exact ⟨s, xferStep_free hf hb⟩
  · exact ⟨_, xferStep_busy hf hb⟩

theorem discoveryStep_next (s : State) : ∃ t, discoveryStep s = .next t := by
  unfold discoveryStep
  split
  · exact ⟨_, rfl⟩
  · dsimp only
    split_ifs <;> exact ⟨_, rfl⟩

/-- A well-formed image of 4 bits per pixel has the bytes a copy moves (20_memory.md R64). -/
theorem length_of_wf {p : Params} {img : Image} (hwf : img.wf p = true) (hbpp : img.bpp = 4) :
    img.data.length = p.imgBytes img.w.toNat img.h.toNat := by
  simpa [Image.wf, hbpp] using hwf

/-- An accepted frame is not wider or higher than the main region. -/
theorem le_of_frameDims {d : Dsp} {img : Image} (h : d.frameDims img = true) :
    img.w.toNat ≤ d.width.toNat ∧ img.h.toNat ≤ d.displayHeight.toNat := by
  obtain ⟨hw, hh⟩ := frameDims_iff.1 h
  have hscale : 0 < d.scale := by unfold Dsp.scale; split <;> decide
  exact ⟨hw ▸ Nat.le_mul_of_pos_right _ hscale, hh ▸ Nat.le_mul_of_pos_right _ hscale⟩

namespace Inv

section
variable (h : Inv s)
include h

/-- The buffer holds every image whose sides are not larger than the panel's (00_scope.md R8). -/
theorem imgBytes_le_size (hc : s.dsp.constructed = true) {img : Image} (hw : img.w.toNat ≤ s.dsp.width.toNat)
    (hh : img.h.toNat ≤ s.dsp.height.toNat) :
    s.env.params.imgBytes img.w.toNat img.h.toNat ≤ s.dsp.screenBuf.size := by
  rw [h.bufferSize, if_pos hc]
  exact s.env.params.imgBytes_mono hw hh

/-- The latched frame has its length and fits the buffer. -/
theorem frame_fits {img : Image} (hp : s.dsp.phase = .sfW1) (hcur : s.dsp.cur = some img) :
    img.data.length = s.env.params.imgBytes img.w.toNat img.h.toNat ∧ img.data.length ≤ s.dsp.screenBuf.size := by
  obtain ⟨img', hcur', hbpp, hdims, hwf⟩ := h.frameLatched hp
  obtain rfl : img = img' := Option.some.inj (hcur.symm.trans hcur')
  obtain ⟨hc, -⟩ := h.constructed_of_submitting hp rfl
  obtain ⟨hw, hh⟩ := le_of_frameDims hdims
  have hlen := length_of_wf hwf hbpp
  exact ⟨hlen, hlen ▸ h.imgBytes_le_size hc hw (hh.trans h.heightBound)⟩

/-- A pending status image that passes the checks of SF_W2 has its length and fits the buffer. -/
theorem status_fits {img : Image} (hc : s.dsp.constructed = true) (hl : s.dsp.lastStatus = some img) (hbpp : img.bpp = 4)
    (hdims : s.dsp.statusDims img = true) :
    img.data.length = s.env.params.imgBytes img.w.toNat img.h.toNat ∧ img.data.length ≤ s.dsp.screenBuf.size := by
  obtain ⟨hwf, -⟩ := h.statusKept img hl
  obtain ⟨hw, hh⟩ := statusDims_iff.1 hdims
  have hlen := length_of_wf hwf hbpp
  exact ⟨hlen, hlen ▸ h.imgBytes_le_size hc (by rw [hw]) (by omega)⟩

/-- The sequencer's turn finds its latches full and its image in the buffer's bounds (log 11). -/
theorem dspStep_next (hf : s.fault = none) : ∃ t, dspStep s = .next t := by
  cases hb : s.xfer.busy <;> cases hp : s.dsp.phase
  case false.sfW1 =>
    obtain ⟨img, hcur, -⟩ := h.frameLatched hp
    obtain ⟨hlen, hsize⟩ := h.frame_fits hp hcur
    exact ⟨_, dspStep_sfW1 hf hb hp hcur hlen hsize⟩
  case false.sfW2 =>
    obtain ⟨hc, -⟩ := h.constructed_of_submitting hp rfl
    obtain ⟨hsome, -⟩ := h.statusPending (.inl hp)
    obtain ⟨img, hl⟩ := Option.isSome_iff_exists.1 hsome
    by_cases hbpp : img.bpp = 4
    · cases hdims : s.dsp.statusDims img
      · exact ⟨_, dspStep_badDims hf hb hp hl hbpp hdims⟩
      · obtain ⟨hlen, hsize⟩ := h.status_fits hc hl hbpp hdims
        exact ⟨_, dspStep_sfW2 hf hb hp hl hbpp hdims hlen hsize⟩
    · exact ⟨_, dspStep_badDepth hf hb hp hl hbpp⟩
  case false.sfW3 => exact ⟨_, dspStep_sfW3 hf hb hp⟩
  case true.sfW1 | true.sfW2 | true.sfW3 => exact ⟨s, dspStep_wait hf (by rw [hp]; rfl) hb⟩
  case false.boot | true.boot =>
    obtain ⟨t, ht⟩ := discoveryStep_next s
    exact ⟨t, (dspStep_boot hf hp).trans ht⟩
  case false.idle | true.idle => exact ⟨s, dspStep_idle hf hp⟩

theorem step_next (hf : s.fault = none) : ∃ t, Machine.step s = .next t := by
  unfold Machine.step
  cases s.env.agent with
  | host => exact hostStep_next (s := s.afterTurn) hf
  | tick => exact tickStep_next (s := s.afterTurn) hf
  | dsp => exact h.afterTurn.dspStep_next hf
  | xfer => exact xferStep_next (s := s.afterTurn) hf

end

end Inv

end

end Sys2Proof.Machine

namespace Sys2Proof.Proofs

open Sys2Proof.Machine

/-- Settles O10: an accepted frame and a fitting status image have their length and lie within the buffer, and nothing else
stops a step of a block with no fault. -/
theorem runningBlockAlwaysSteps : Obligations.RunningBlockAlwaysSteps := fun _ h hf => h.step_next hf

/-- Settles O11: move by move, each clause that a move touches is established again. -/
theorem everyStepKeepsInv : Obligations.EveryStepKeepsInv := fun _ _ h hs => h.step hs

end Sys2Proof.Proofs
end

section
/-! PROOFS. The scanner: the shift-in, the edge machine, and the commands MUX_INIT, MUX_TICK, MUX_QUERY and MUX_DISABLE
(40_scanner.md R111–R113, R118–R120, R122). -/

namespace Sys2Proof.Machine

/-! ## The value of the bits shifted in -/

/-- The sum of the samples' weights, the first sample the heaviest (40_scanner.md R112). -/
def weightedSum (ds : List Bool) : Nat := ∑ k : Fin ds.length, ds[k].toNat * 2 ^ (ds.length - 1 - k.val)

theorem weightedSum_cons (d : Bool) (ds : List Bool) :
    weightedSum (d :: ds) = d.toNat * 2 ^ ds.length + weightedSum ds := by
  unfold weightedSum
  refine (Fin.sum_univ_succ _).trans (congrArg _ ?_)
  refine Finset.sum_congr rfl fun k _ => ?_
  congr 2
  simp only [List.length_cons, Fin.val_succ]
  omega

theorem weightedSum_lt (ds : List Bool) : weightedSum ds < 2 ^ ds.length := by
  induction ds with
  | nil => simp [weightedSum]
  | cons d ds ih =>
    rw [weightedSum_cons, List.length_cons, pow_succ]
    have : d.toNat * 2 ^ ds.length ≤ 1 * 2 ^ ds.length := Nat.mul_le_mul_right _ (Bool.toNat_le d)
    omega

theorem shiftBit_toNat {acc : Word} (h : acc.toNat < 2 ^ 31) (d : Bool) :
    (shiftBit acc d).toNat = 2 * acc.toNat + d.toNat := by
  have hd : d.toNat < 2 ^ 1 := Bool.toNat_lt d
  have hshift : acc.toNat <<< 1 < 2 ^ 32 := by rw [Nat.shiftLeft_eq]; omega
  rw [shiftBit, BitVec.toNat_or, BitVec.toNat_shiftLeft, Nat.mod_eq_of_lt hshift, BitVec.toNat_setWidth,
    BitVec.toNat_ofBool, Nat.mod_eq_of_lt (by omega), ← Nat.shiftLeft_add_eq_or_of_lt hd, Nat.shiftLeft_eq]
  omega

/-- Shifting samples into an accumulator with room for them. -/
theorem foldl_shiftBit_toNat (ds : List Bool) (acc : Word) (h : (acc.toNat + 1) * 2 ^ ds.length ≤ 2 ^ 32) :
    (ds.foldl shiftBit acc).toNat = acc.toNat * 2 ^ ds.length + weightedSum ds := by
  induction ds generalizing acc with
  | nil => simp [weightedSum]
  | cons d ds ih =>
    rw [List.length_cons, pow_succ] at h
    have hpos : 0 < 2 ^ ds.length := Nat.two_pow_pos _
    have hacc : acc.toNat < 2 ^ 31 := by nlinarith
    have hnext := shiftBit_toNat hacc d
    have hd : d.toNat ≤ 1 := Bool.toNat_le d
    rw [List.foldl_cons, ih _ (by rw [hnext]; nlinarith), hnext, weightedSum_cons, List.length_cons, pow_succ]
    ring

theorem bitsValue_toNat {ds : List Bool} (h : ds.length ≤ 32) : (bitsValue ds).toNat = weightedSum ds := by
  rw [bitsValue, foldl_shiftBit_toNat ds 0 (by simpa using Nat.pow_le_pow_right (by decide) h)]
  simp

theorem shiftBit_getLsbD_zero (acc : Word) (d : Bool) : (shiftBit acc d).getLsbD 0 = d := by
  simp [shiftBit]

theorem shiftBit_getLsbD_succ (acc : Word) (d : Bool) {j : Nat} (h : j + 1 < 32) :
    (shiftBit acc d).getLsbD (j + 1) = acc.getLsbD j := by
  simp [shiftBit, h, BitVec.getLsbD_eq_getElem (show j < 32 by omega)]

/-- A bit that stands in the accumulator moves up by one with every sample. -/
theorem foldl_shiftBit_getLsbD_add (ds : List Bool) (acc : Word) (j : Nat) (h : ds.length + j < 32) :
    (ds.foldl shiftBit acc).getLsbD (ds.length + j) = acc.getLsbD j := by
  induction ds generalizing acc j with
  | nil => simp
  | cons d ds ih =>
    rw [List.length_cons] at h ⊢
    rw [List.foldl_cons, Nat.add_assoc, Nat.add_comm 1, ih _ _ (by omega), shiftBit_getLsbD_succ _ _ (by omega)]

/-- Sample k of n ends at bit n−1−k. -/
theorem foldl_shiftBit_getLsbD (ds : List Bool) (acc : Word) (h : ds.length ≤ 32) (k : Nat) (hk : k < ds.length) :
    (ds.foldl shiftBit acc).getLsbD (ds.length - 1 - k) = ds[k] := by
  induction ds generalizing acc k with
  | nil => cases hk
  | cons d ds ih =>
    rw [List.length_cons] at h hk
    rw [List.foldl_cons]
    cases k with
    | zero => exact (foldl_shiftBit_getLsbD_add ds _ 0 (by omega)).trans (shiftBit_getLsbD_zero acc d)
    | succ k =>
      rw [List.getElem_cons_succ, ← ih (shiftBit acc d) (by omega) k (by omega), List.length_cons]
      congr 1
      omega

theorem bitsValue_getLsbD {ds : List Bool} (h : ds.length ≤ 32) (k : Nat) (hk : k < ds.length) :
    (bitsValue ds).getLsbD (ds.length - 1 - k) = ds[k] :=
  foldl_shiftBit_getLsbD ds 0 h k hk

/-- Input i of an 8-bit sample is the sample taken at 7−i. -/
theorem bitsValue_byte_getLsbD {ds : List Bool} (h : ds.length = 8) (i : Fin 8) :
    ((bitsValue ds).setWidth 8).getLsbD i.val = ds[7 - i.val]'(by omega) := by
  rw [BitVec.getLsbD_setWidth, decide_eq_true i.isLt, Bool.true_and,
    ← bitsValue_getLsbD (by omega) (7 - i.val) (by omega)]
  congr 1
  omega

/-! ## The read -/

@[simp] theorem readPins_data (pins : Pins) (n : Nat) : (readPins pins n).data = pins.data := by
  unfold readPins; split <;> rfl
@[simp] theorem readPins_rst (pins : Pins) (n : Nat) : (readPins pins n).rst = pins.rst := by
  unfold readPins; split <;> rfl
@[simp] theorem readPins_bl (pins : Pins) (n : Nat) : (readPins pins n).bl = pins.bl := by
  unfold readPins; split <;> rfl
@[simp] theorem readPins_latch (pins : Pins) (n : Nat) : (readPins pins n).latch = .out true := by
  unfold readPins; split <;> rfl

theorem readPins_clk (pins : Pins) (n : Nat) : (readPins pins n).clk = if n = 0 then pins.clk else .out true := by
  unfold readPins; split <;> rfl

/-- The clause on the stored bits, as the statement's `^^` binds: weaker than `=`, so it compares before it inverts. -/
theorem xor_decide_xor_eq (sample mask : Bool) : (decide ((sample ^^ mask) = sample) ^^ mask) = true := by
  cases sample <;> cases mask <;> rfl

/-! ## The edge machine -/

theorem edgeEvents_eq (id : ButtonId) (stored sample : Bool) :
    edgeEvents id stored sample =
      if sample = stored ∨ id = 0 then []
      else if sample then [⟨.keyDown, id⟩, ⟨.keyDown, 0⟩]
      else [⟨.keyUp, id⟩, ⟨.keyUp, 0⟩] := by
  by_cases h : sample = stored ∨ id = 0
  · rw [if_pos h, edgeEvents, if_pos (h.imp_left Eq.symm)]
  · rw [if_neg h, edgeEvents, if_neg (mt (Or.imp_left Eq.symm) h)]
    cases sample <;> rfl

theorem tickEvents_eq (ids : Vector ButtonId 8) (stored sample : BitVec 8) :
    tickEvents ids stored sample = (List.finRange 8).flatMap fun i =>
      if sample.getLsbD i.val = stored.getLsbD i.val ∨ ids[i] = 0 then []
      else if sample.getLsbD i.val then [⟨.keyDown, ids[i]⟩, ⟨.keyDown, 0⟩]
      else [⟨.keyUp, ids[i]⟩, ⟨.keyUp, 0⟩] := by
  simp only [tickEvents, edgeEvents_eq]

/-- One tick's events, input after input. -/
theorem tickEvents_unrolled (ids : Vector ButtonId 8) (stored sample : BitVec 8) :
    tickEvents ids stored sample =
      edgeEvents ids[0] (stored.getLsbD 0) (sample.getLsbD 0) ++ edgeEvents ids[1] (stored.getLsbD 1) (sample.getLsbD 1) ++
      edgeEvents ids[2] (stored.getLsbD 2) (sample.getLsbD 2) ++ edgeEvents ids[3] (stored.getLsbD 3) (sample.getLsbD 3) ++
      edgeEvents ids[4] (stored.getLsbD 4) (sample.getLsbD 4) ++ edgeEvents ids[5] (stored.getLsbD 5) (sample.getLsbD 5) ++
      edgeEvents ids[6] (stored.getLsbD 6) (sample.getLsbD 6) ++ edgeEvents ids[7] (stored.getLsbD 7) (sample.getLsbD 7) := by
  rw [tickEvents, show List.finRange 8 = [0, 1, 2, 3, 4, 5, 6, 7] by decide]
  simp only [List.flatMap_cons, List.flatMap_nil, List.append_nil, List.append_assoc]
  rfl

/-! ## The query -/

/-- The first slot bound to an id. -/
theorem firstBound_eq_some {ids : Vector ButtonId 8} {id : ButtonId} {i : Fin 8} (h : ids[i] = id)
    (hfirst : ∀ j : Fin 8, j < i → ids[j] ≠ id) : firstBound ids id = some i := by
  rw [firstBound, List.find?_eq_some_iff_getElem]
  refine ⟨by simp [h], i.val, by simp, by simp, fun j hj => ?_⟩
  simpa using hfirst ⟨j, by omega⟩ hj

theorem firstBound_eq_none {ids : Vector ButtonId 8} {id : ButtonId} (h : ∀ j : Fin 8, ids[j] ≠ id) :
    firstBound ids id = none := by
  rw [firstBound, List.find?_eq_none]
  intro j _
  simpa using h j

section
variable (m : Mux) {ids : Vector ButtonId 8} {id : ButtonId}

@[simp] theorem Mux.levelOf_zero (ids : Vector ButtonId 8) : m.levelOf ids 0 = false := by
  rw [Mux.levelOf, if_pos rfl]

theorem Mux.levelOf_unbound (h : ∀ j : Fin 8, ids[j] ≠ id) : m.levelOf ids id = false := by
  rw [Mux.levelOf, firstBound_eq_none h]
  exact ite_self _

theorem Mux.levelOf_first (hid : id ≠ 0) {i : Fin 8} (h : ids[i] = id) (hfirst : ∀ j : Fin 8, j < i → ids[j] ≠ id) :
    m.levelOf ids id = m.state.getLsbD i.val := by
  rw [Mux.levelOf, if_neg hid, firstBound_eq_some h hfirst]

end

/-- What a query of an id answers (40_scanner.md R119). -/
def State.queryAnswer (s : State) (id : ButtonId) : Word :=
  if s.mux.constructed = true ∧ s.mux.levelOf (s.mux.queryIds s.env.params.bindRule) id = true then 1 else 0

/-! ## What the commands do on a block with no fault -/

section
variable {s : State} (hf : s.fault = none)
include hf

theorem exec_muxInit : exec .muxInit s = .next s.ensureMux := by
  rw [exec, execMuxInit, whenRunning_running hf]

theorem exec_muxTick_on (hc : s.mux.constructed = true) (he : s.mux.enabled = true) :
    exec .muxTick s = .next ((s.afterRead 8).storeSample ((bitsValue (s.env.levels 8)).setWidth 8)) := by
  rw [exec, execMuxTick, whenRunning_running hf, if_pos (by rw [hc, he]; rfl), State.readBits_enabled he]

theorem exec_muxTick_off (h : s.mux.constructed = false ∨ s.mux.enabled = false) : exec .muxTick s = .next s := by
  rw [exec, execMuxTick, whenRunning_running hf, if_neg (by rcases h with h | h <;> simp [h])]

theorem exec_muxQuery (id : ButtonId) : exec (.muxQuery id) s = .next { s with res := s.queryAnswer id } := by
  rw [exec, execMuxQuery, whenRunning_running hf, Mux.pressed_eq, State.queryAnswer]
  cases s.mux.constructed <;> simp

theorem exec_muxDisable_constructed (hc : s.mux.constructed = true) :
    exec .muxDisable s = .next { s with
      mux := { s.mux with enabled := false }
      pins := { s.pins with latch := .neutral, clk := .neutral, data := .neutral }
      ptrace := s.ptrace ++ [.pin .latch .neutral, .pin .clk .neutral, .pin .data .neutral] } := by
  rw [exec, execMuxDisable, whenRunning_running hf, if_pos hc]
  simp [State.pinRelease, State.drivePin, Pins.withMode]

theorem exec_muxDisable_unbuilt (hc : s.mux.constructed = false) : exec .muxDisable s = .next s := by
  rw [exec, execMuxDisable, whenRunning_running hf, if_neg (by simp [hc])]

end

/-- What the construction of the scanner leaves, element by element. -/
theorem State.constructMux_eq (s : State) :
    s.constructMux = { s with
      mux := ⟨true, true, 0, 0, Vector.replicate 8 0, Vector.replicate 8 0⟩
      pins := { s.pins with latch := .out true, clk := .out true, data := .inPd }
      ptrace := s.ptrace ++ [.pin .latch (.out true), .pin .clk (.out true), .pin .data .inPd] } := by
  simp [State.constructMux, State.pinWrite, State.pinInput, State.drivePin, Pins.withMode]

theorem State.ensureMux_constructed_eq {s : State} (h : s.mux.constructed = true) : s.ensureMux = s := if_pos h

theorem State.ensureMux_unbuilt_eq {s : State} (h : s.mux.constructed = false) : s.ensureMux = s.constructMux :=
  if_neg (by simp [h])

end Sys2Proof.Machine

namespace Sys2Proof.Proofs

open Sys2Proof.Machine

/-- Settles O24: the state after the read is `State.afterRead`, whose pins and records are those of the protocol. -/
theorem readBitsRunsTheProtocol : Obligations.ReadBitsRunsTheProtocol := by
  refine fun s n _ => ⟨fun he => ⟨s.afterRead n, State.readBits_enabled he n, ?_, ?_, ?_, ?_, ?_, ?_, ?_, ?_⟩,
    fun he => State.readBits_disabled he n⟩
  · rw [List.append_assoc]
    rfl
  · simp [Nat.add_assoc]
  · exact readPins_latch _ _
  · exact fun hn => (readPins_clk _ _).trans (if_neg hn.ne')
  · exact fun hn => (readPins_clk _ _).trans (if_pos hn)
  · exact readPins_data _ _
  · exact readPins_rst _ _
  · exact readPins_bl _ _

/-- Settles O25: each sample shifts the earlier ones up by one bit. -/
theorem firstSampleIsMostSignificant : Obligations.FirstSampleIsMostSignificant :=
  ⟨fun ds h => ⟨fun k => bitsValue_getLsbD h k.val k.isLt, bitsValue_toNat h,
    (bitsValue_toNat h).trans_lt (weightedSum_lt ds)⟩, fun _ h i => bitsValue_byte_getLsbD h i, rfl⟩

/-- Settles O26: MUX_INIT is the construction of a scanner that is not constructed. -/
theorem muxInitConstructsOnce : Obligations.MuxInitConstructsOnce := by
  refine ⟨spells_of_number rfl, fun s hf => ⟨fun hc => ?_, fun hc => ?_⟩⟩
  · rw [exec_muxInit hf, State.ensureMux_unbuilt_eq hc, State.constructMux_eq]
  · rw [exec_muxInit hf, State.ensureMux_constructed_eq hc]

/-- Settles O29: a tick is a read of eight bits, and the sample is stored after its edges have been emitted. -/
theorem muxTickSamplesEmitsAndStores : Obligations.MuxTickSamplesEmitsAndStores := by
  refine ⟨spells_of_number rfl, fun s hf => ⟨fun hc he v hv => ?_, exec_muxTick_off hf⟩⟩
  rw [exec_muxTick_on hf hc he, hv, ← tickEvents_eq]
  rfl

/-- Settles O30: the table is `edgeEvents`, and a tick's events are its rows in increasing index. -/
theorem edgeTableHolds : Obligations.EdgeTableHolds := by
  refine ⟨fun b hb => ?_, edgeEvents_unbound, fun s hf hc he => ⟨_, exec_muxTick_on hf hc he, ?_, fun i => ?_⟩⟩
  · have hb' : ¬ b = 0#8 := hb
    simp [edgeEvents, hb']
  · simp only [State.storeSample_evq, tickEvents_unrolled, List.append_assoc]
    rfl
  · simp only [State.storeSample_mux, State.afterRead_mux, BitVec.getLsbD_xor]
    rw [bitsValue_byte_getLsbD (Env.levels_length _ _), getElem!_pos (s.env.levels 8) (7 - i.val) (by simp; omega)]
    exact xor_decide_xor_eq _ _

/-- Settles O31: the bindings scanned are those of the rule, and the first match decides. -/
theorem muxQueryAnswersFirstMatch : Obligations.MuxQueryAnswersFirstMatch := by
  intro id
  refine ⟨spells_of_number (by simp only [Instr.opcode, Instr.operandBits]; omega), fun s ids hf honce htick =>
    ⟨_, exec_muxQuery hf id, ?_⟩⟩
  have hids : s.mux.queryIds s.env.params.bindRule = ids := by
    cases hr : s.env.params.bindRule with
    | atOnce => exact (honce hr).symm
    | atTick => exact (htick hr).symm
  rw [State.queryAnswer, hids]
  refine ⟨fun h => ?_, fun h => ?_, fun hc hid i hi hfirst => ?_⟩
  · rcases h with h | rfl
    · rw [if_neg (by simp [h])]
    · rw [s.mux.levelOf_zero, if_neg (by simp)]
  · rw [s.mux.levelOf_unbound h, if_neg (by simp)]
  · simp [hc, Mux.levelOf_first _ hid hi hfirst]

/-- Settles O33: the three releases, and the enable bit. -/
theorem muxDisableReleasesThePins : Obligations.MuxDisableReleasesThePins :=
  ⟨spells_of_number rfl, fun _ hf => ⟨exec_muxDisable_constructed hf, exec_muxDisable_unbuilt hf⟩⟩

end Sys2Proof.Proofs
end

section
/-! PROOFS. The display's commands DISP_INIT and DISP_SUBMITFRAME in IDLE (41_display.md R141, R162, R164, R167). -/

namespace Sys2Proof.Machine

/-! ## What the commands do on a block with no fault -/

/-- The state in which DISP_SUBMITFRAME makes its checks: the guard is taken first (41_display.md R162). -/
def State.takeGuard (s : State) : State := { s with dsp := { s.dsp with inUpdate := true } }

section
variable {s : State} (hf : s.fault = none) (hp : s.dsp.phase = .idle)
include hf hp

theorem exec_dispInit_idle (hc : s.dsp.constructed = false) :
    exec .dispInit s = .next { s.ensureMux with dsp := { s.dsp with phase := .boot } } := by
  rw [exec, execDispInit, whenRunning_running hf, if_neg (by simp [hc]), if_neg (not_not.2 hp), State.ensureMux_dsp]

theorem exec_dispSubmitframe_unbuilt (img : Option Image) (hc : s.dsp.constructed = false) :
    exec (.dispSubmitframe img) s = .next s := by
  rw [exec, execDispSubmitframe, whenRunning_running hf, if_neg (by simp [hp]), if_neg (not_not.2 hp),
    if_pos (show (!s.dsp.constructed) = true by simp [hc]), ite_self]

theorem exec_dispSubmitframe_accepts (img : Option Image) (hc : s.dsp.constructed = true) (hu : s.dsp.inUpdate = false) :
    exec (.dispSubmitframe img) s = .next (s.takeGuard.acceptFrame img) := by
  rw [exec, execDispSubmitframe, whenRunning_running hf, if_neg (by simp [hp]), if_neg (by simp [hu]),
    if_neg (not_not.2 hp), if_neg (by simp [hc])]
  rfl

end

/-- Taking the guard and finishing at once leaves an idle display as it was. -/
theorem State.finish_takeGuard {s : State} (hp : s.dsp.phase = .idle) (hu : s.dsp.inUpdate = false) :
    s.takeGuard.finish = s := by
  have hself : { s.dsp with inUpdate := false, phase := .idle } = s.dsp := by rw [← hu, ← hp]
  rw [State.finish, State.takeGuard]
  exact congrArg (fun d => { s with dsp := d }) hself

section
variable (s : State) {img : Image}

theorem State.acceptFrame_bpp (h : img.bpp ≠ 4) : s.acceptFrame (some img) = s.raise .frameBpp (.value img.bpp) := by
  rw [State.acceptFrame, if_pos h]

theorem State.acceptFrame_dim (h : img.bpp = 4) (hd : s.dsp.frameDims img = false) :
    s.acceptFrame (some img) = s.raise .frameDim (.dims img.w img.h) := by
  rw [State.acceptFrame, if_neg (not_not.2 h), if_pos (by simp [hd])]

theorem State.acceptFrame_ok (h : img.bpp = 4) (hd : s.dsp.frameDims img = true) :
    s.acceptFrame (some img) = { s with dsp := { s.dsp with cur := some img, phase := .sfW1 } } := by
  rw [State.acceptFrame, if_neg (not_not.2 h), if_neg (by simp [hd])]

end

end Sys2Proof.Machine

namespace Sys2Proof.Proofs

open Sys2Proof.Machine

/-- Settles O35: the scanner is ensured before BOOT is entered. -/
theorem dispInitEntersBoot : Obligations.DispInitEntersBoot := by
  refine ⟨spells_of_number rfl, fun s hf => ⟨exec_dispInit_constructed hf, fun hc hp hm => ?_, fun hc hp hm => ?_,
    fun hc hp => exec_dispInit_busy hf hc (by simp [hp])⟩⟩
  · rw [exec_dispInit_idle hf hp hc, State.ensureMux_constructed_eq hm]
  · rw [exec_dispInit_idle hf hp hc, State.ensureMux_unbuilt_eq hm, State.constructMux_eq]

/-- Settles O43: the guard, then the two checks in their order, then the latch. -/
theorem dispSubmitframeValidatesTheImage : Obligations.DispSubmitframeValidatesTheImage := by
  refine fun img => ⟨spells_dispSubmitframe_some img, fun s hf hp => ⟨exec_dispSubmitframe_unbuilt hf hp _,
    exec_dispSubmitframe_dropped hf _ (by simp [hp]), fun hc hu m hm => ?_⟩⟩
  rw [exec_dispSubmitframe_accepts hf hp _ hc hu]
  have hdims : s.takeGuard.dsp.frameDims img = true ↔
      img.w.toNat * m = s.dsp.width.toNat ∧ img.h.toNat * m = s.dsp.displayHeight.toNat := by
    rw [frameDims_iff, hm]
    rfl
  refine ⟨fun hbpp => ?_, fun hbpp hmis => ?_, fun hbpp hw hh => ?_⟩
  · rw [State.acceptFrame_bpp _ hbpp]
    rfl
  · have hbad : s.takeGuard.dsp.frameDims img = false := by
      rw [← Bool.not_eq_true, hdims]
      tauto
    rw [State.acceptFrame_dim _ hbpp hbad]
    rfl
  · rw [State.acceptFrame_ok _ hbpp (hdims.2 ⟨hw, hh⟩)]
    rfl

/-- Settles O44: without an image the acceptance is the status phase, and a status phase with nothing to send gives the guard
back. -/
theorem dispSubmitframeFlushesStatus : Obligations.DispSubmitframeFlushesStatus := by
  refine ⟨spells_of_number rfl, fun s hf hp => ⟨exec_dispSubmitframe_unbuilt hf hp _,
    exec_dispSubmitframe_dropped hf _ (by simp [hp]), fun hc hu => ⟨fun hl hd => ?_, fun h => ?_⟩⟩⟩ <;>
    rw [exec_dispSubmitframe_accepts hf hp _ hc hu, State.acceptFrame]
  · rw [State.statusPhase_pending (s := s.takeGuard) hl hd]
    rfl
  · rw [State.statusPhase_finish (s := s.takeGuard) h, State.finish_takeGuard hp hu]

end Sys2Proof.Proofs
end

section
/-! PROOFS. What the spec calls UNSPECIFIED is never observed: the buffer's bytes and a clean palette decide nothing
(70_reset_and_hazards.md R213). -/

namespace Sys2Proof.Machine

/-! ## States that differ in what is UNSPECIFIED -/

/-- The state with another palette and another buffer. -/
def State.withUnspecified (s : State) (pal : Palette) (buf : Memory) : State :=
  { s with dsp := { s.dsp with currPalette := pal, screenBuf := buf } }

theorem SameSpecified.exists_eq {s t : State} (h : SameSpecified s t) :
    ∃ pal buf, t = s.withUnspecified pal buf ∧ buf.size = s.dsp.screenBuf.size ∧
      (s.dsp.newPalette = true → pal = s.dsp.currPalette) := by
  obtain ⟨ht, hsize, hpal⟩ := h
  exact ⟨_, _, ht, hsize, hpal⟩

/-- Two answers, or two states, by one and the same test. -/
theorem rel_ite {α : Type} {R : α → α → Prop} {c : Prop} [Decidable c] {a a' b b' : α} (ha : R a a') (hb : R b b') :
    R (if c then a else b) (if c then a' else b') := by
  split
  · exact ha
  · exact hb

theorem SameAnswers.ite {c : Prop} [Decidable c] {a a' b b' : Answer} (ha : SameAnswers a a') (hb : SameAnswers b b') :
    SameAnswers (if c then a else b) (if c then a' else b') := rel_ite ha hb

theorem SameSpecified.ite {c : Prop} [Decidable c] {s s' t t' : State} (hs : SameSpecified s s')
    (ht : SameSpecified t t') : SameSpecified (if c then s else t) (if c then s' else t') := rel_ite hs ht

/-- Staging an image answers by its length and the buffer's size alone. -/
theorem stageImage_eq (p : Params) (m : Memory) (img : Image) :
    stageImage p m img =
      if img.data.length = p.imgBytes img.w.toNat img.h.toNat ∧ img.data.length ≤ m.size then
        .ok (m.staged img.data, img.data)
      else .error .bufferRange := by
  split
  · rename_i h
    exact stageImage_total p m img h.1 h.2
  · rename_i h
    have hw : m.write 0 (p.imgBytes img.w.toNat img.h.toNat) img.data = .error .bufferRange := by
      rw [Memory.write, if_neg]
      rw [Nat.zero_add]
      exact fun hc => h ⟨hc.1, hc.1 ▸ hc.2⟩
    simp only [stageImage, hw]

/-! ## The sequencer's copying steps -/

theorem sfW1Step_busy {s : State} (hb : s.xfer.busy = true) : sfW1Step s = .next s := if_pos hb

theorem sfW2Step_busy {s : State} (hb : s.xfer.busy = true) : sfW2Step s = .next s := if_pos hb

section
variable {s : State} (hb : s.xfer.busy = false)
include hb

theorem sfW1Step_empty (hcur : s.dsp.cur = none) : sfW1Step s = .fault .latchEmpty := by
  simp [sfW1Step, hb, hcur]

theorem sfW1Step_latched {img : Image} (hcur : s.dsp.cur = some img) :
    sfW1Step s =
      if img.data.length = s.env.params.imgBytes img.w.toNat img.h.toNat ∧ img.data.length ≤ s.dsp.screenBuf.size then
        .next (s.afterMainSend img).statusPhase
      else .fault .bufferRange := by
  simp only [sfW1Step, hb, hcur, Bool.false_eq_true, if_false, stageImage_eq]
  split_ifs <;> rfl

theorem sfW2Step_empty (hl : s.dsp.lastStatus = none) : sfW2Step s = .fault .latchEmpty := by
  simp [sfW2Step, hb, hl]

theorem sfW2Step_pending {img : Image} (hl : s.dsp.lastStatus = some img) :
    sfW2Step s =
      if img.bpp ≠ 4 then .next (s.raise .statusBpp (.value img.bpp))
      else if !s.dsp.statusDims img then .next (s.raise .statusDim (.dims img.w img.h))
      else if img.data.length = s.env.params.imgBytes img.w.toNat img.h.toNat ∧
          img.data.length ≤ s.dsp.screenBuf.size then .next (s.afterStatusSend img)
      else .fault .bufferRange := by
  simp only [sfW2Step, hb, hl, Bool.false_eq_true, if_false, stageImage_eq]
  split_ifs
  · rfl
  · rfl
  · simp [State.panel, State.xferStart, State.afterStatusSend, Dsp.statusWindow, hl]
  · rfl

end

section
variable {s : State} {pal : Palette} {buf : Memory}

theorem State.ensureMux_withUnspecified :
    (s.withUnspecified pal buf).ensureMux = s.ensureMux.withUnspecified pal buf :=
  (apply_ite (State.withUnspecified · pal buf) (s.mux.constructed = true) s s.constructMux).symm

theorem whenRunning_sameAnswers {k : State → Answer} (h : SameAnswers (k s) (k (s.withUnspecified pal buf))) :
    SameAnswers (whenRunning s k) (whenRunning (s.withUnspecified pal buf) k) := by
  cases hf : s.fault with
  | some f =>
    rw [whenRunning_halted hf, whenRunning_halted (s := s.withUnspecified pal buf) hf]
    rfl
  | none => rwa [whenRunning_running hf, whenRunning_running (s := s.withUnspecified pal buf) hf]

/-- The palette is sent only when DISP_SETPAL has written it. -/
theorem selectedPalette_withUnspecified (hpal : s.dsp.newPalette = true → pal = s.dsp.currPalette) :
    (s.withUnspecified pal buf).dsp.selectedPalette = s.dsp.selectedPalette := by
  change (if s.dsp.newPalette then some pal else none) = if s.dsp.newPalette then some s.dsp.currPalette else none
  split
  · rw [hpal ‹_›]
  · rfl

section
variable (hsize : buf.size = s.dsp.screenBuf.size) (hpal : s.dsp.newPalette = true → pal = s.dsp.currPalette)
include hsize hpal

/-- A state and its twin agree on what is specified. -/
theorem sameSpecified_withUnspecified : SameSpecified s (s.withUnspecified pal buf) := ⟨rfl, hsize, hpal⟩

theorem sameSpecified_statusPhase : SameSpecified s.statusPhase (s.withUnspecified pal buf).statusPhase :=
  .ite ⟨rfl, hsize, hpal⟩ ⟨rfl, hsize, hpal⟩

theorem sameSpecified_acceptFrame (img : Option Image) :
    SameSpecified (s.takeGuard.acceptFrame img) ((s.withUnspecified pal buf).takeGuard.acceptFrame img) := by
  cases img with
  | none => exact sameSpecified_statusPhase (s := s.takeGuard) hsize hpal
  | some i =>
    exact .ite ⟨rfl, hsize, hpal⟩
      (.ite ⟨rfl, hsize, hpal⟩ ⟨rfl, hsize, hpal⟩)

/-! ## Commands -/

/-- A command sees the palette and the buffer nowhere, and DISP_SETPAL writes the palette whole. -/
theorem exec_sameAnswers (i : Instr) : SameAnswers (exec i s) (exec i (s.withUnspecified pal buf)) := by
  cases hf : s.fault with
  | some c =>
    rw [exec_halted hf, exec_halted (s := s.withUnspecified pal buf) hf]
    rfl
  | none =>
    have hf' : (s.withUnspecified pal buf).fault = none := hf
    have hsame : SameAnswers (.next s) (.next (s.withUnspecified pal buf)) := sameSpecified_withUnspecified hsize hpal
    cases i with
    | muxInit =>
      rw [exec_muxInit hf, exec_muxInit hf', State.ensureMux_withUnspecified]
      exact sameSpecified_withUnspecified (by rwa [State.ensureMux_dsp]) (by rwa [State.ensureMux_dsp])
    | muxBind slot id =>
      rw [exec_muxBind hf, exec_muxBind hf']
      exact .ite ⟨rfl, hsize, hpal⟩ hsame
    | muxSetinv slot =>
      rw [exec_muxSetinv hf, exec_muxSetinv hf']
      exact .ite ⟨rfl, hsize, hpal⟩ hsame
    | muxTick =>
      cases hc : s.mux.constructed
      · rwa [exec_muxTick_off hf (.inl hc), exec_muxTick_off hf' (.inl hc)]
      · cases he : s.mux.enabled
        · rwa [exec_muxTick_off hf (.inr he), exec_muxTick_off hf' (.inr he)]
        · rw [exec_muxTick_on hf hc he, exec_muxTick_on hf' hc he]
          exact ⟨rfl, hsize, hpal⟩
    | muxQuery id =>
      rw [exec_muxQuery hf, exec_muxQuery hf']
      exact ⟨rfl, hsize, hpal⟩
    | muxReadbits n =>
      cases hc : s.mux.constructed
      · rw [exec_muxReadbits_unbuilt hf n hc, exec_muxReadbits_unbuilt hf' n hc]
        exact ⟨rfl, hsize, hpal⟩
      · cases he : s.mux.enabled
        · rw [exec_muxReadbits_disabled hf n hc he, exec_muxReadbits_disabled hf' n hc he]
          exact ⟨rfl, hsize, hpal⟩
        · rw [exec_muxReadbits_enabled hf n hc he, exec_muxReadbits_enabled hf' n hc he]
          exact ⟨rfl, hsize, hpal⟩
    | muxDisable =>
      cases hc : s.mux.constructed
      · rwa [exec_muxDisable_unbuilt hf hc, exec_muxDisable_unbuilt hf' hc]
      · rw [exec_muxDisable_constructed hf hc, exec_muxDisable_constructed hf' hc]
        exact ⟨rfl, hsize, hpal⟩
    | dispInit =>
      simp only [exec, execDispInit, whenRunning_running hf, whenRunning_running hf', State.ensureMux_withUnspecified]
      refine .ite hsame (.ite ⟨rfl, hsize, hpal⟩ ⟨rfl, ?_, ?_⟩)
      · rwa [State.ensureMux_dsp]
      · rwa [State.ensureMux_dsp]
    | dispSetpal bytes =>
      simp only [exec, execDispSetpal, whenRunning_running hf, whenRunning_running hf']
      exact .ite ⟨rfl, hsize, hpal⟩ (.ite hsame
        (.ite ⟨rfl, hsize, hpal⟩ ⟨rfl, hsize, fun _ => rfl⟩))
    | dispCfgstatus h =>
      simp only [exec, execDispCfgstatus, whenRunning_running hf, whenRunning_running hf']
      exact .ite ⟨rfl, hsize, hpal⟩ (.ite ⟨rfl, hsize, hpal⟩
        (.ite hsame (.ite ⟨rfl, hsize, hpal⟩
          (.ite hsame (.ite ⟨rfl, hsize, hpal⟩ ⟨rfl, hsize, hpal⟩)))))
    | dispSubmitstatus img =>
      simp only [exec, execDispSubmitstatus, whenRunning_running hf, whenRunning_running hf']
      refine .ite ⟨rfl, hsize, hpal⟩ (.ite hsame ?_)
      cases img with
      | none => exact hsame
      | some i => exact .ite hsame ⟨rfl, hsize, hpal⟩
    | dispSubmitframe img =>
      simp only [exec, execDispSubmitframe, whenRunning_running hf, whenRunning_running hf']
      exact .ite ⟨rfl, hsize, hpal⟩ (.ite hsame
        (.ite ⟨rfl, hsize, hpal⟩ (.ite hsame
          (sameSpecified_acceptFrame hsize hpal img))))

theorem present_sameAnswers (c : Command) : SameAnswers (present c s) (present c (s.withUnspecified pal buf)) := by
  cases hd : decode s.env.params c.word c.payload with
  | ok i =>
    rw [present_ok hd, present_ok (s := s.withUnspecified pal buf) hd]
    exact exec_sameAnswers hsize hpal i
  | error e =>
    cases hf : s.fault with
    | some f =>
      rw [present_halted hf, present_halted (s := s.withUnspecified pal buf) hf]
      rfl
    | none =>
      rw [present_error hf hd, present_error (s := s.withUnspecified pal buf) hf hd]
      exact ⟨rfl, hsize, hpal⟩

/-! ## The agents' turns -/

theorem hostStep_sameAnswers : SameAnswers (hostStep s) (hostStep (s.withUnspecified pal buf)) := by
  have hcmds : (s.withUnspecified pal buf).env.cmds = s.env.cmds := rfl
  unfold hostStep
  rw [hcmds]
  cases s.env.cmds with
  | nil => exact whenRunning_sameAnswers ⟨rfl, hsize, hpal⟩
  | cons c rest => exact present_sameAnswers (s := s.takeCommand) hsize hpal c

theorem tickStep_sameAnswers : SameAnswers (tickStep s) (tickStep (s.withUnspecified pal buf)) :=
  .ite (exec_sameAnswers hsize hpal .muxTick) (whenRunning_sameAnswers ⟨rfl, hsize, hpal⟩)

theorem xferStep_sameAnswers : SameAnswers (xferStep s) (xferStep (s.withUnspecified pal buf)) :=
  whenRunning_sameAnswers (.ite ⟨rfl, hsize, hpal⟩ ⟨rfl, hsize, hpal⟩)

/-- Bring-up writes the palette and the buffer anew. -/
theorem discoveryStep_sameAnswers :
    SameAnswers (discoveryStep s) (discoveryStep (s.withUnspecified pal buf)) := by
  unfold discoveryStep
  cases he : s.mux.enabled
  · rw [State.readBits_disabled (s := s.pulse .rst) he,
      State.readBits_disabled (s := (s.withUnspecified pal buf).pulse .rst) he]
    exact ⟨rfl, hsize, hpal⟩
  · rw [State.readBits_enabled (s := s.pulse .rst) he,
      State.readBits_enabled (s := (s.withUnspecified pal buf).pulse .rst) he]
    exact .ite ⟨rfl, hsize, hpal⟩ (.ite ⟨rfl, hsize, hpal⟩ ⟨rfl, rfl, fun _ => rfl⟩)

/-- The copy needs the buffer's size alone, and the bytes sent are those just copied. -/
theorem sfW1Step_sameAnswers : SameAnswers (sfW1Step s) (sfW1Step (s.withUnspecified pal buf)) := by
  cases hb : s.xfer.busy
  · cases hcur : s.dsp.cur with
    | none =>
      rw [sfW1Step_empty hb hcur, sfW1Step_empty (s := s.withUnspecified pal buf) hb hcur]
      rfl
    | some img =>
      rw [sfW1Step_latched hb hcur, sfW1Step_latched (s := s.withUnspecified pal buf) hb hcur]
      have hbuf : (s.withUnspecified pal buf).dsp.screenBuf.size = s.dsp.screenBuf.size := hsize
      rw [hbuf]
      refine .ite ?_ rfl
      have hsent : (s.withUnspecified pal buf).afterMainSend img =
          (s.afterMainSend img).withUnspecified pal (buf.staged img.data) := by
        unfold State.afterMainSend
        rw [selectedPalette_withUnspecified hpal]
        rfl
      rw [hsent]
      exact sameSpecified_statusPhase (s := s.afterMainSend img) hsize nofun
  · rw [sfW1Step_busy hb, sfW1Step_busy (s := s.withUnspecified pal buf) hb]
    exact ⟨rfl, hsize, hpal⟩

theorem sfW2Step_sameAnswers : SameAnswers (sfW2Step s) (sfW2Step (s.withUnspecified pal buf)) := by
  cases hb : s.xfer.busy
  · cases hl : s.dsp.lastStatus with
    | none =>
      rw [sfW2Step_empty hb hl, sfW2Step_empty (s := s.withUnspecified pal buf) hb hl]
      rfl
    | some img =>
      rw [sfW2Step_pending hb hl, sfW2Step_pending (s := s.withUnspecified pal buf) hb hl]
      have hbuf : (s.withUnspecified pal buf).dsp.screenBuf.size = s.dsp.screenBuf.size := hsize
      rw [hbuf]
      exact .ite ⟨rfl, hsize, hpal⟩ (.ite ⟨rfl, hsize, hpal⟩ (.ite ⟨rfl, hsize, hpal⟩ rfl))
  · rw [sfW2Step_busy hb, sfW2Step_busy (s := s.withUnspecified pal buf) hb]
    exact ⟨rfl, hsize, hpal⟩

theorem sfW3Step_sameAnswers : SameAnswers (sfW3Step s) (sfW3Step (s.withUnspecified pal buf)) :=
  .ite ⟨rfl, hsize, hpal⟩ ⟨rfl, hsize, hpal⟩

theorem dspStep_sameAnswers : SameAnswers (dspStep s) (dspStep (s.withUnspecified pal buf)) := by
  refine whenRunning_sameAnswers ?_
  have hphase : (s.withUnspecified pal buf).dsp.phase = s.dsp.phase := rfl
  rw [hphase]
  cases s.dsp.phase with
  | idle => exact ⟨rfl, hsize, hpal⟩
  | boot => exact discoveryStep_sameAnswers hsize hpal
  | sfW1 => exact sfW1Step_sameAnswers hsize hpal
  | sfW2 => exact sfW2Step_sameAnswers hsize hpal
  | sfW3 => exact sfW3Step_sameAnswers hsize hpal

theorem step_sameAnswers : SameAnswers (step s) (step (s.withUnspecified pal buf)) := by
  have hagent : (s.withUnspecified pal buf).env.agent = s.env.agent := rfl
  unfold step
  rw [hagent]
  cases s.env.agent with
  | host => exact hostStep_sameAnswers (s := s.afterTurn) hsize hpal
  | tick => exact tickStep_sameAnswers (s := s.afterTurn) hsize hpal
  | dsp => exact dspStep_sameAnswers (s := s.afterTurn) hsize hpal
  | xfer => exact xferStep_sameAnswers (s := s.afterTurn) hsize hpal

end

end

end Sys2Proof.Machine

namespace Sys2Proof.Proofs

open Sys2Proof.Machine

/-- Settles O22: every test of a step reads specified elements alone; of the buffer a step needs the size, and of the palette
nothing before DISP_SETPAL or bring-up has written it. -/
theorem unspecifiedValuesNeverObserved : Obligations.UnspecifiedValuesNeverObserved := by
  intro s t h
  obtain ⟨pal, buf, rfl, hsize, hpal⟩ := h.exists_eq
  exact step_sameAnswers hsize hpal

end Sys2Proof.Proofs
end

section
/-! PROOFS. The frames of the moves: what a command, a sequencer step and a completion leave unchanged
(20_memory.md R73). -/

namespace Sys2Proof.Machine

/-! ## The scanner, once it has been ensured -/

section
variable (s : State)

/-- Whatever the construction leaves alone, MUX_INIT's effects leave alone. -/
theorem State.ensureMux_field {α : Type} (f : State → α) (h : f s.constructMux = f s) : f s.ensureMux = f s := by
  rcases s.ensureMux_cases with ⟨-, e⟩ | ⟨-, e⟩ <;> rw [e]
  exact h

@[simp] theorem State.ensureMux_xfer : s.ensureMux.xfer = s.xfer := s.ensureMux_field State.xfer rfl
@[simp] theorem State.ensureMux_fault : s.ensureMux.fault = s.fault := s.ensureMux_field State.fault rfl
@[simp] theorem State.ensureMux_refused : s.ensureMux.refused = s.refused := s.ensureMux_field State.refused rfl
@[simp] theorem State.ensureMux_res : s.ensureMux.res = s.res := s.ensureMux_field State.res rfl
@[simp] theorem State.ensureMux_evq : s.ensureMux.evq = s.evq := s.ensureMux_field State.evq rfl
@[simp] theorem State.ensureMux_qtrace : s.ensureMux.qtrace = s.qtrace := s.ensureMux_field State.qtrace rfl
@[simp] theorem State.ensureMux_env : s.ensureMux.env = s.env := s.ensureMux_field State.env rfl
@[simp] theorem State.ensureMux_rst : s.ensureMux.pins.rst = s.pins.rst := s.ensureMux_field (·.pins.rst) rfl
@[simp] theorem State.ensureMux_bl : s.ensureMux.pins.bl = s.pins.bl := s.ensureMux_field (·.pins.bl) rfl

theorem State.ensureMux_ptrace : ∃ ps, s.ensureMux.ptrace = s.ptrace ++ ps := by
  rcases s.ensureMux_cases with ⟨-, e⟩ | ⟨-, e⟩ <;> rw [e]
  · exact ⟨[], (List.append_nil _).symm⟩
  · rw [State.constructMux_eq]
    exact ⟨_, rfl⟩

end

section
variable (s : State) (code : IdCode)

@[simp] theorem State.bringUp_mux : (s.bringUp code).mux = s.mux := by rw [State.bringUp_eq]
@[simp] theorem State.bringUp_dsp :
    (s.bringUp code).dsp = Dsp.broughtUp s.env.params code s.env.freeCount := by rw [State.bringUp_eq]
@[simp] theorem State.bringUp_xfer : (s.bringUp code).xfer = s.xfer := by rw [State.bringUp_eq]
@[simp] theorem State.bringUp_fault : (s.bringUp code).fault = s.fault := by rw [State.bringUp_eq]
@[simp] theorem State.bringUp_refused : (s.bringUp code).refused = s.refused := by rw [State.bringUp_eq]
@[simp] theorem State.bringUp_res : (s.bringUp code).res = s.res := by rw [State.bringUp_eq]
@[simp] theorem State.bringUp_evq : (s.bringUp code).evq = s.evq := by rw [State.bringUp_eq]

end

/-- What bring-up writes from the configuration record (10_state.md R35, R36, R38–R41). -/
def Dsp.configuration (d : Dsp) : Colour × Dim × Dim × Dim × Dim × Bool × Byte × BitVec 32 × IdCode :=
  (d.palXOR, d.width, d.height, d.offX, d.offY, d.doubleSize, d.modeByte, d.timingWord, d.dispId)

theorem Dsp.configuration_eq_iff {d e : Dsp} :
    d.configuration = e.configuration ↔ d.palXOR = e.palXOR ∧ d.width = e.width ∧ d.height = e.height ∧
      d.offX = e.offX ∧ d.offY = e.offY ∧ d.doubleSize = e.doubleSize ∧ d.modeByte = e.modeByte ∧
      d.timingWord = e.timingWord ∧ d.dispId = e.dispId := by
  simp only [Dsp.configuration, Prod.mk.injEq]

/-! ## Commands -/

theorem ne_dispInit_of_scanner {i : Instr} (ho : i.opcode < 0x10) : i ≠ .dispInit := by
  rintro rfl
  simp [Instr.opcode] at ho

namespace ExecMove

section
variable {s t : State} {i : Instr} (h : ExecMove s i t)
include h

/-- No command touches the transfer engine. -/
theorem xfer_eq : t.xfer = s.xfer := by
  cases h with
  | displayInit => exact s.ensureMux_xfer
  | _ => rfl

theorem refused_eq : t.refused = s.refused := by
  cases h with
  | displayInit => exact s.ensureMux_refused
  | _ => rfl

theorem params_eq : t.env.params = s.env.params := by
  cases h with
  | displayInit => exact congrArg Env.params s.ensureMux_env
  | tick | readbits => exact Env.afterLevels_params _ _
  | _ => rfl

theorem cmds_eq : t.env.cmds = s.env.cmds := by
  cases h with
  | displayInit => exact congrArg Env.cmds s.ensureMux_env
  | tick | readbits => exact Env.afterLevels_cmds _ _
  | _ => rfl

theorem sched_eq : t.env.sched = s.env.sched := by
  cases h with
  | displayInit => exact congrArg Env.sched s.ensureMux_env
  | tick | readbits => exact Env.afterLevels_sched _ _
  | _ => rfl

theorem rst_eq : t.pins.rst = s.pins.rst := by
  cases h with
  | displayInit => exact s.ensureMux_rst
  | tick | readbits => exact readPins_rst _ _
  | _ => rfl

theorem bl_eq : t.pins.bl = s.pins.bl := by
  cases h with
  | displayInit => exact s.ensureMux_bl
  | tick | readbits => exact readPins_bl _ _
  | _ => rfl

/-- No command touches the staging buffer. -/
theorem screenBuf_eq : t.dsp.screenBuf = s.dsp.screenBuf := by cases h <;> rfl

theorem constructed_eq : t.dsp.constructed = s.dsp.constructed := by cases h <;> rfl

theorem configuration_eq : t.dsp.configuration = s.dsp.configuration := by cases h <;> rfl

theorem evq_eq (hi : i ≠ .muxTick) : t.evq = s.evq := by
  cases h with
  | tick => exact absurd rfl hi
  | displayInit => exact s.ensureMux_evq
  | _ => rfl

theorem res_eq (hq : ∀ id, i ≠ .muxQuery id) (hr : ∀ n, i ≠ .muxReadbits n) : t.res = s.res := by
  cases h with
  | query id => exact absurd rfl (hq id)
  | readbits n | readbitsUnbuilt n => exact absurd rfl (hr n)
  | displayInit => exact s.ensureMux_res
  | _ => rfl

theorem qtrace_eq (hi : ∀ bar, i ≠ .dispCfgstatus bar) : t.qtrace = s.qtrace := by
  cases h with
  | bar bar => exact absurd rfl (hi bar)
  | displayInit => exact s.ensureMux_qtrace
  | _ => rfl

theorem ptrace_eq (hi : i ∉ [.muxInit, .muxTick, .muxDisable, .dispInit]) (hr : ∀ n, i ≠ .muxReadbits n) :
    t.ptrace = s.ptrace := by
  cases h with
  | init | tick | disable | displayInit => simp at hi
  | readbits n => exact absurd rfl (hr n)
  | _ => rfl

theorem evq_append : ∃ es, t.evq = s.evq ++ es := by
  cases h with
  | tick => exact ⟨_, rfl⟩
  | displayInit => exact ⟨[], by simp⟩
  | _ => exact ⟨[], (List.append_nil _).symm⟩

theorem ptrace_append : ∃ ps, t.ptrace = s.ptrace ++ ps := by
  cases h with
  | init => exact ⟨_, by rw [State.constructMux_eq]⟩
  | tick | readbits | disable => exact ⟨_, rfl⟩
  | displayInit => exact s.ensureMux_ptrace
  | _ => exact ⟨[], (List.append_nil _).symm⟩

theorem qtrace_append : ∃ qs, t.qtrace = s.qtrace ++ qs := by
  cases h with
  | bar => exact ⟨_, rfl⟩
  | displayInit => exact ⟨[], by simp⟩
  | _ => exact ⟨[], (List.append_nil _).symm⟩

/-! ### The scanner's elements -/

theorem mux_eq_of_display (ho : 0x10 ≤ i.opcode) (hi : i ≠ .dispInit) :
    t.mux = s.mux ∧ t.pins = s.pins ∧ t.ptrace = s.ptrace := by
  cases h with
  | displayInit => exact absurd rfl hi
  | init | bind | setinv | tick | query | readbits | readbitsOff | readbitsUnbuilt | disable =>
    simp [Instr.opcode] at ho
  | _ => exact ⟨rfl, rfl, rfl⟩

theorem muxConstructed_eq (h1 : i ≠ .muxInit) (h2 : i ≠ .dispInit) : t.mux.constructed = s.mux.constructed := by
  cases h with
  | init => exact absurd rfl h1
  | displayInit => exact absurd rfl h2
  | _ => rfl

theorem enabled_eq (h1 : i ≠ .muxInit) (h2 : i ≠ .muxDisable) (h3 : i ≠ .dispInit) :
    t.mux.enabled = s.mux.enabled ∧ t.pins.data = s.pins.data := by
  cases h with
  | init => exact absurd rfl h1
  | disable => exact absurd rfl h2
  | displayInit => exact absurd rfl h3
  | tick | readbits => exact ⟨rfl, readPins_data _ _⟩
  | _ => exact ⟨rfl, rfl⟩

theorem state_eq (h1 : i ≠ .muxInit) (h2 : i ≠ .muxTick) (h3 : i ≠ .dispInit) :
    t.mux.state = s.mux.state ∧ t.mux.tickId = s.mux.tickId := by
  cases h with
  | init => exact absurd rfl h1
  | tick => exact absurd rfl h2
  | displayInit => exact absurd rfl h3
  | _ => exact ⟨rfl, rfl⟩

theorem invMask_eq (h1 : i ≠ .muxInit) (h2 : ∀ slot, i ≠ .muxSetinv slot) (h3 : i ≠ .dispInit) :
    t.mux.invMask = s.mux.invMask := by
  cases h with
  | init => exact absurd rfl h1
  | setinv slot => exact absurd rfl (h2 slot)
  | displayInit => exact absurd rfl h3
  | _ => rfl

theorem id_eq (h1 : i ≠ .muxInit) (h2 : ∀ slot id, i ≠ .muxBind slot id) (h3 : i ≠ .dispInit) :
    t.mux.id = s.mux.id := by
  cases h with
  | init => exact absurd rfl h1
  | bind slot id => exact absurd rfl (h2 slot id)
  | displayInit => exact absurd rfl h3
  | _ => rfl

/-- A binding, an inversion and a query touch no pin and draw nothing. -/
theorem pins_eq_of_register
    (hi : (∃ slot id, i = .muxBind slot id) ∨ (∃ slot, i = .muxSetinv slot) ∨ ∃ id, i = .muxQuery id) :
    t.pins = s.pins ∧ t.ptrace = s.ptrace ∧ t.env = s.env := by
  cases h with
  | init | tick | readbits | disable | displayInit => simp at hi
  | _ => exact ⟨rfl, rfl, rfl⟩

theorem dsp_eq_of_scanner (ho : i.opcode < 0x10) : t.dsp = s.dsp := by
  cases h with
  | displayInit | setpal | bar | status | frame | frameBpp | frameDim | flush => simp [Instr.opcode] at ho
  | _ => rfl

theorem fault_eq_of_scanner (ho : i.opcode < 0x10) (hr : ∀ n, i ≠ .muxReadbits n) : t.fault = s.fault := by
  cases h with
  | readbitsOff n => exact absurd rfl (hr n)
  | busy _ ho' => omega
  | displayInit | setpalSize | barInFlight | barTooTall | frameBpp | frameDim => simp [Instr.opcode] at ho
  | _ => rfl

/-! ### The display's elements -/

theorem displayHeight_eq (hi : ∀ bar, i ≠ .dispCfgstatus bar) : t.dsp.displayHeight = s.dsp.displayHeight := by
  cases h with
  | bar bar => exact absurd rfl (hi bar)
  | _ => rfl

theorem palette_eq (hi : ∀ pal, i ≠ .dispSetpal pal) :
    t.dsp.currPalette = s.dsp.currPalette ∧ t.dsp.newPalette = s.dsp.newPalette := by
  cases h with
  | setpal pal => exact absurd rfl (hi pal)
  | _ => exact ⟨rfl, rfl⟩

theorem lastStatus_eq (hi : ∀ img, i ≠ .dispSubmitstatus img) : t.dsp.lastStatus = s.dsp.lastStatus := by
  cases h with
  | status img => exact absurd rfl (hi _)
  | _ => rfl

theorem guard_eq (hi : ∀ img, i ≠ .dispSubmitframe img) :
    t.dsp.inUpdate = s.dsp.inUpdate ∧ t.dsp.cur = s.dsp.cur := by
  cases h with
  | frame | frameBpp | frameDim | flush => exact absurd rfl (hi _)
  | _ => exact ⟨rfl, rfl⟩

theorem phase_eq (h1 : i ≠ .dispInit) (h2 : ∀ img, i ≠ .dispSubmitframe img) : t.dsp.phase = s.dsp.phase := by
  cases h with
  | displayInit => exact absurd rfl h1
  | frame | frameBpp | frameDim | flush => exact absurd rfl (h2 _)
  | _ => rfl

theorem env_eq_of_display (ho : 0x10 ≤ i.opcode) : t.env = s.env := by
  cases h with
  | displayInit => exact s.ensureMux_env
  | tick | readbits => simp [Instr.opcode] at ho
  | _ => rfl

end

end ExecMove

/-! ## Steps of the sequencer -/

/-- The records of a discovery step: the pulse on RST and the read. -/
theorem State.discovery_ptrace (s : State) :
    ((s.pulse .rst).afterRead 17).ptrace =
      s.ptrace ++ ([.pin .rst (.out false), .pin .rst (.out true)] ++ readRecords (s.env.levels 17)) := by
  rw [State.afterRead_ptrace, State.pulse_rst, List.append_assoc]

namespace DspMove

section
variable {s t : State} (h : DspMove s t)
include h

theorem mux_eq : t.mux = s.mux := by
  cases h with
  | up => exact State.bringUp_mux _ _
  | _ => rfl

theorem evq_eq : t.evq = s.evq := by
  cases h with
  | up => exact State.bringUp_evq _ _
  | _ => rfl

theorem res_eq : t.res = s.res := by
  cases h with
  | up => exact State.bringUp_res _ _
  | _ => rfl

theorem refused_eq : t.refused = s.refused := by
  cases h with
  | up => exact State.bringUp_refused _ _
  | _ => rfl

theorem params_eq : t.env.params = s.env.params := by
  cases h with
  | lost | retry | up => exact Env.afterLevels_params _ _
  | _ => rfl

theorem cmds_eq : t.env.cmds = s.env.cmds := by
  cases h with
  | lost | retry | up => exact Env.afterLevels_cmds _ _
  | _ => rfl

theorem sched_eq : t.env.sched = s.env.sched := by
  cases h with
  | lost | retry | up => exact Env.afterLevels_sched _ _
  | _ => rfl

/-- Only discovery touches a pin, PTRACE or the environment, and only bring-up the geometry and the palette. -/
theorem discovery_only (hp : s.dsp.phase ≠ .boot) :
    t.pins = s.pins ∧ t.ptrace = s.ptrace ∧ t.env = s.env ∧ t.dsp.constructed = s.dsp.constructed ∧
      t.dsp.displayHeight = s.dsp.displayHeight ∧ t.dsp.currPalette = s.dsp.currPalette ∧
      t.dsp.configuration = s.dsp.configuration := by
  cases h with
  | noRead hb | lost hb | retry hb | up _ hb => exact absurd hb hp
  | _ => exact ⟨rfl, rfl, rfl, rfl, rfl, rfl, rfl⟩

theorem xfer_eq_of_boot (hp : s.dsp.phase = .boot) : t.xfer = s.xfer := by
  cases h with
  | mainToStatus _ _ hp' | mainToEnd _ _ hp' | status _ _ hp' => simp [hp] at hp'
  | up => exact State.bringUp_xfer _ _
  | _ => rfl

theorem ptrace_append : ∃ ps, t.ptrace = s.ptrace ++ ps := by
  cases h with
  | noRead => exact ⟨_, congrArg State.ptrace s.pulse_rst⟩
  | lost | retry => exact ⟨_, s.discovery_ptrace⟩
  | up code =>
    rw [State.bringUp_eq]
    exact ⟨_, (congrArg (· ++ _) s.discovery_ptrace).trans (List.append_assoc _ _ _)⟩
  | _ => exact ⟨[], (List.append_nil _).symm⟩

theorem qtrace_append : ∃ qs, t.qtrace = s.qtrace ++ qs := by
  cases h with
  | up code =>
    rw [State.bringUp_eq]
    exact ⟨_, rfl⟩
  | mainToStatus | mainToEnd | status | finish => exact ⟨_, rfl⟩
  | _ => exact ⟨[], (List.append_nil _).symm⟩

end

end DspMove

end Sys2Proof.Machine

namespace Sys2Proof.Proofs

open Sys2Proof.Machine

/-- Settles O34: each clause is one of the frame lemmas of the commands' moves. -/
theorem scannerCommandsFrame : Obligations.ScannerCommandsFrame := by
  intro i s t ho h
  obtain ⟨-, hm⟩ := exec_moves h
  have hd := ne_dispInit_of_scanner ho
  exact ⟨hm.dsp_eq_of_scanner ho, hm.xfer_eq, hm.qtrace_eq (by rintro _ rfl; simp [Instr.opcode] at ho), hm.refused_eq,
    fun _ => by rw [hm.screenBuf_eq], hm.rst_eq, hm.bl_eq, hm.params_eq, hm.cmds_eq, hm.sched_eq, hm.evq_eq, hm.res_eq,
    fun h1 => hm.muxConstructed_eq h1 hd, fun h1 h2 => hm.enabled_eq h1 h2 hd, fun h1 h2 => hm.state_eq h1 h2 hd,
    fun h1 h2 => hm.invMask_eq h1 h2 hd, fun h1 h2 => hm.id_eq h1 h2 hd, hm.pins_eq_of_register,
    hm.fault_eq_of_scanner ho⟩

/-- Settles O47: each clause is one of the frame lemmas of the commands' moves. -/
theorem displayCommandsFrame : Obligations.DisplayCommandsFrame := by
  intro i s t ho h
  obtain ⟨-, hm⟩ := exec_moves h
  obtain ⟨hxor, hw, hh, hx, hy, hdouble, hmode, htiming, hid⟩ := Dsp.configuration_eq_iff.1 hm.configuration_eq
  exact ⟨hm.xfer_eq, hm.evq_eq (by rintro rfl; simp [Instr.opcode] at ho),
    hm.res_eq (by rintro _ rfl; simp [Instr.opcode] at ho) (by rintro _ rfl; simp [Instr.opcode] at ho),
    hm.refused_eq, hm.env_eq_of_display ho, fun _ => by rw [hm.screenBuf_eq], hm.rst_eq, hm.bl_eq,
    hm.mux_eq_of_display ho, fun hi => ⟨hm.qtrace_eq hi, hm.displayHeight_eq hi⟩, hm.palette_eq, hm.lastStatus_eq,
    hm.guard_eq, hm.phase_eq, hm.constructed_eq, hxor, hw, hh, hx, hy, hdouble, hmode, htiming, hid, hm.screenBuf_eq⟩

/-- Settles O53: the frame lemmas of the sequencer's moves, and the completion's two writes. -/
theorem sequencerStepsFrame : Obligations.SequencerStepsFrame := by
  intro s t
  refine ⟨fun h => ?_, fun h => ?_⟩
  · obtain ⟨-, hm⟩ := dspStep_moves h
    refine ⟨hm.mux_eq, hm.evq_eq, hm.res_eq, hm.refused_eq, hm.params_eq, hm.cmds_eq, hm.sched_eq, fun hp => ?_,
      hm.xfer_eq_of_boot⟩
    obtain ⟨hpins, hptrace, henv, -, hheight, hpal, -⟩ := hm.discovery_only hp
    exact ⟨hpins, hptrace, henv, hheight, hpal⟩
  · obtain ⟨-, h⟩ := whenRunning_next h
    split at h <;> cases h <;> rfl

end Sys2Proof.Proofs
end

section
/-! PROOFS. Whole-machine rules, each read off the moves of a step: what is constant, what only grows, where the phase
goes, which fault has which cause, and what is left to happen at a successful end (10_state.md, 60_exceptions.md,
70_reset_and_hazards.md). -/

namespace Sys2Proof.Machine

/-! ## Construction, configuration, buffer and height -/

/-- A command does not undo the scanner's construction, and enables no scanner that is constructed. -/
theorem ExecMove.scanner_for_life {s t : State} {i : Instr} (h : ExecMove s i t) (hc : s.mux.constructed = true) :
    t.mux.constructed = true ∧ (s.mux.enabled = false → t.mux.enabled = false) := by
  cases h with
  | init hu => simp [hc] at hu
  | displayInit =>
    rw [State.ensureMux_constructed_eq hc]
    exact ⟨hc, id⟩
  | disable => exact ⟨hc, fun _ => rfl⟩
  | _ => exact ⟨hc, id⟩

theorem DspMove.constructed_of {s t : State} (h : DspMove s t) (hc : s.dsp.constructed = true) :
    t.dsp.constructed = true := by
  cases h with
  | up => rw [State.bringUp_dsp]; rfl
  | _ => exact hc

namespace Inv

section
variable {s t : State} (h : Inv s)
include h

/-- A constructed display is not in discovery. -/
theorem phase_ne_boot (hc : s.dsp.constructed = true) : s.dsp.phase ≠ .boot := fun hp => by
  simp [h.bootUnconstructed hp] at hc

/-- Nothing is in flight in discovery. -/
theorem not_busy_of_boot (hp : s.dsp.phase = .boot) : s.xfer.busy = false := by
  have hrec : some none = some s.xfer.record := by
    rw [← h.traceSerial, h.traceEmpty (h.bootUnconstructed hp)]
    rfl
  rw [h.recordInFlight, ← Option.some.inj hrec]
  rfl

/-- The copying steps await the transfer in flight, and discovery has none. -/
theorem dspMove_screenBuf_eq (hb : s.xfer.busy = true) (hm : DspMove s t) : t.dsp.screenBuf = s.dsp.screenBuf := by
  cases hm with
  | up _ hp => simp [h.not_busy_of_boot hp] at hb
  | mainToStatus _ _ _ hfree | mainToEnd _ _ _ hfree | status _ _ _ hfree => simp [hb] at hfree
  | _ => rfl

end

end Inv

/-! ## The phase -/

/-- The transitions of 10_state.md R31. -/
def listedTransitions : List (Phase × Phase) :=
  [(.idle, .boot), (.idle, .sfW1), (.idle, .sfW2), (.boot, .idle), (.sfW1, .sfW2), (.sfW1, .idle), (.sfW2, .sfW3),
    (.sfW3, .idle)]

/-- A command moves the phase out of IDLE alone. -/
theorem ExecMove.phase_listed {s t : State} {i : Instr} (h : ExecMove s i t) (hne : t.dsp.phase ≠ s.dsp.phase) :
    (s.dsp.phase, t.dsp.phase) ∈ listedTransitions ∧ s.dsp.phase = .idle := by
  cases h with
  | displayInit _ hp | frame _ _ hp | flush _ hp => exact ⟨by simp [listedTransitions, hp], hp⟩
  | _ => exact absurd rfl hne

/-- The sequencer leaves a frame phase with no transfer in flight. -/
theorem DspMove.phase_listed {s t : State} (h : DspMove s t) (hne : t.dsp.phase ≠ s.dsp.phase) :
    (s.dsp.phase, t.dsp.phase) ∈ listedTransitions ∧ (s.dsp.phase.submitting = true → s.xfer.busy = false) := by
  cases h with
  | up _ hp => exact ⟨by simp [listedTransitions, hp, Dsp.broughtUp], by simp [hp, Phase.submitting]⟩
  | mainToStatus _ _ hp hb | mainToEnd _ _ hp hb | status _ _ hp hb | finish hp hb =>
    exact ⟨by simp [listedTransitions, hp], fun _ => hb⟩
  | _ => exact absurd rfl hne

/-! ## Faults -/

/-- A command that raises a fault has its cause. -/
theorem ExecMove.fault_cause {s t : State} {i : Instr} {code : FaultCode} {info : FaultInfo} (hf : s.fault = none)
    (hpres : s.presented = some i) (h : ExecMove s.afterTurn.takeCommand i t) (ht : t.fault = some (code, info)) :
    FaultCause s code info := by
  cases h with
  | readbitsOff n hc he => cases ht; exact ⟨he, rfl, .inl ⟨n, hpres, hc⟩⟩
  | busy _ ho hp => cases ht; exact ⟨i, hpres, ho, hp, rfl⟩
  | setpalSize pal _ _ hlen => cases ht; exact ⟨pal, hpres, hlen, rfl⟩
  | barInFlight bar hp hfly => cases ht; exact ⟨bar, hpres, hp, hfly, rfl⟩
  | barTooTall bar _ hd htall => cases ht; exact ⟨bar, hpres, hd, htall, rfl⟩
  | frameBpp img _ _ _ hbpp => cases ht; exact ⟨img, hpres, hbpp, rfl⟩
  | frameDim img _ _ _ hbpp hdims =>
    cases ht
    refine ⟨img, hpres, hbpp, ?_, rfl⟩
    rw [← Bool.not_eq_true, frameDims_iff] at hdims
    tauto
  | displayInit => exact absurd ((State.ensureMux_fault _).symm.trans ht) (by simp [hf])
  | _ => exact absurd (hf.symm.trans ht) nofun

theorem DspMove.fault_cause {s t : State} {code : FaultCode} {info : FaultInfo} (hf : s.fault = none)
    (ha : s.env.agent = .dsp) (h : DspMove s.afterTurn t) (ht : t.fault = some (code, info)) :
    FaultCause s code info := by
  cases h with
  | noRead hp he => cases ht; exact ⟨he, rfl, .inr ⟨ha, hp⟩⟩
  | lost hp _ hcode => cases ht; exact ⟨ha, hp, hcode, rfl⟩
  | badDepth img hp _ hl hbpp => cases ht; exact ⟨img, ha, hp, hl, hbpp, rfl⟩
  | badDims img hp _ hl hbpp hdims =>
    cases ht
    refine ⟨img, ha, hp, hl, hbpp, ?_, rfl⟩
    rw [← Bool.not_eq_true, statusDims_iff] at hdims
    tauto
  | up => exact absurd ((State.bringUp_fault _ _).symm.trans ht) (by simp [hf, State.pulse_rst])
  | _ => exact absurd (hf.symm.trans ht) nofun

/-! ## A successful end -/

/-- A tick changes the stored levels, the events and PTRACE, and the pins are where a read leaves them. -/
theorem Inv.tick_frame {s t : State} (h : Inv s) (he : s.mux.enabled = true) (hm : ExecMove s .muxTick t) :
    t = { s with
      mux := { s.mux with state := t.mux.state, tickId := t.mux.tickId }
      evq := t.evq
      ptrace := t.ptrace
      env := t.env } := by
  cases hm with
  | tick =>
    have hpins := h.readPins_eq he 8
    rw [State.storeSample, State.afterRead, hpins]
    rfl
  | tickOff => rfl
  | busy _ ho => simp [Instr.opcode] at ho
  | displayUnbuilt _ ho => simp [Instr.opcode] at ho

theorem State.presented_of_no_cmds {s : State} (hc : s.env.cmds = []) : s.presented = none := by
  cases hp : s.presented with
  | none => rfl
  | some i =>
    obtain ⟨c, rest, -, hcmds, -⟩ := State.presented_eq_some hp
    rw [hc] at hcmds
    cases hcmds

theorem DspMove.eq_of_idle {s t : State} (h : DspMove s t) (hp : s.dsp.phase = .idle) : t = s := by
  cases h with
  | idle | wait => rfl
  | noRead hp' | lost hp' | retry hp' | up _ hp' | mainToStatus _ _ hp' | mainToEnd _ _ hp' | badDepth _ hp'
  | badDims _ hp' | status _ _ hp' | finish hp' => simp [hp] at hp'

/-- At a successful end a step is a tick of a running scanner, or changes no element. -/
theorem State.successfulEnd.step_cases {s t : State} (hend : s.successfulEnd) (h : step s = .next t) :
    t = s.afterTurn ∨ s.env.agent = .tick ∧ s.mux.enabled = true ∧ ExecMove s.afterTurn .muxTick t := by
  obtain ⟨-, -, hp, hb, hc⟩ := hend
  obtain ⟨-, hm⟩ := step_moves h
  cases hm with
  | nothing => exact .inl rfl
  | exec i _ hpres => simp [State.presented_of_no_cmds hc] at hpres
  | refuse _ hne => exact absurd hc hne
  | tick _ ha _ he hm => exact .inr ⟨ha, he, hm⟩
  | dsp _ _ hm => exact .inl (hm.eq_of_idle hp)
  | done _ hb' => simp [hb] at hb'

end Sys2Proof.Machine

namespace Sys2Proof.Proofs

open Sys2Proof.Machine

/-- Settles O14: no move writes the parameters, and only a refusal writes REFUSED, which it sets. -/
theorem parametersNeverChange : Obligations.ParametersNeverChange := by
  intro s t h
  obtain ⟨-, hm⟩ := step_moves h
  cases hm with
  | nothing | done => exact ⟨Env.afterTurn_params _, id⟩
  | exec i _ _ hm =>
    exact ⟨hm.params_eq.trans s.afterTurn_takeCommand_params, fun hr => hm.refused_eq.trans hr⟩
  | refuse => exact ⟨s.afterTurn_takeCommand_params, fun _ => rfl⟩
  | tick _ _ _ _ hm => exact ⟨hm.params_eq.trans (Env.afterTurn_params _), fun hr => hm.refused_eq.trans hr⟩
  | dsp _ _ hm => exact ⟨hm.params_eq.trans (Env.afterTurn_params _), fun hr => hm.refused_eq.trans hr⟩

/-- Settles O15: no move clears a constructed bit or sets the enable bit of a constructed scanner. -/
theorem constructionIsForLife : Obligations.ConstructionIsForLife := by
  intro s t h
  obtain ⟨-, hm⟩ := step_moves h
  cases hm with
  | nothing | refuse | done => exact ⟨fun hc => ⟨hc, id⟩, id⟩
  | exec i _ _ hm => exact ⟨hm.scanner_for_life, fun hc => hm.constructed_eq.trans hc⟩
  | tick _ _ _ _ hm => exact ⟨hm.scanner_for_life, fun hc => hm.constructed_eq.trans hc⟩
  | dsp _ _ hm => exact ⟨fun hc => by rw [hm.mux_eq]; exact ⟨hc, id⟩, hm.constructed_of⟩

/-- Settles O16: only bring-up writes the configuration, and a constructed display is not in discovery. -/
theorem configurationReadOnlyAfterBringUp : Obligations.ConfigurationReadOnlyAfterBringUp := by
  intro s t hinv hc h
  refine Dsp.configuration_eq_iff.1 ?_
  obtain ⟨-, hm⟩ := step_moves h
  cases hm with
  | nothing | refuse | done => rfl
  | exec i _ _ hm => exact hm.configuration_eq
  | tick _ _ _ _ hm => exact hm.configuration_eq
  | dsp _ _ hm =>
    obtain ⟨-, -, -, -, -, -, hcfg⟩ := hm.discovery_only (hinv.phase_ne_boot hc)
    exact hcfg

/-- Settles O17: no command writes the buffer, and the sequencer's copies await the transfer in flight. -/
theorem bufferUntouchedInFlight : Obligations.BufferUntouchedInFlight := by
  intro s t hinv hb h
  obtain ⟨-, hm⟩ := step_moves h
  cases hm with
  | nothing | refuse | done => rfl
  | exec i _ _ hm => exact hm.screenBuf_eq
  | tick _ _ _ _ hm => exact hm.screenBuf_eq
  | dsp _ _ hm => exact hinv.afterTurn.dspMove_screenBuf_eq hb hm

/-- Settles O18: the one move that writes the height of a constructed display is an accepted DISP_CFGSTATUS. -/
theorem heightChangesOnlyAtRest : Obligations.HeightChangesOnlyAtRest := by
  intro s t hinv hc h hne
  obtain ⟨-, hm⟩ := step_moves h
  cases hm with
  | nothing | refuse | done => exact absurd rfl hne
  | exec i _ hpres hm =>
    cases hm with
    | bar bar _ hp hu hb hd hle => exact ⟨⟨bar, hpres, BitVec.toNat_sub_of_le hle⟩, hp, hu, hb, hd⟩
    | _ => exact absurd rfl hne
  | tick _ _ _ _ hm => exact absurd (hm.displayHeight_eq nofun) hne
  | dsp _ _ hm =>
    obtain ⟨-, -, -, -, hheight, -, -⟩ := hm.discovery_only (hinv.phase_ne_boot hc)
    exact absurd hheight hne

/-- Settles O19: the frame lemmas of the moves say who writes which output, and every write appends. -/
theorem outputsOnlyGrow : Obligations.OutputsOnlyGrow := by
  intro s t h
  obtain ⟨-, hm⟩ := step_moves h
  cases hm with
  | nothing | refuse =>
    exact ⟨⟨[], by simp⟩, ⟨[], by simp⟩, ⟨[], by simp⟩, absurd rfl, absurd rfl, absurd rfl, absurd rfl⟩
  | done ha hb =>
    exact ⟨⟨[], by simp⟩, ⟨[], by simp⟩, ⟨_, rfl⟩, absurd rfl, absurd rfl, fun _ => .inr (.inl ⟨ha, hb⟩),
      absurd rfl⟩
  | exec i _ hpres hm =>
    refine ⟨hm.evq_append, hm.ptrace_append, hm.qtrace_append, fun hne => ?_, fun hne => ?_, fun hne => ?_,
      fun hne => ?_⟩ <;> rw [hpres]
    · exact .inr (congrArg some (not_not.1 fun hi => hne (hm.evq_eq hi)))
    · refine .inr (.inr (by_contra fun hno => ?_))
      obtain ⟨hlisted, hread⟩ := not_or.1 hno
      exact hne (hm.ptrace_eq (by simpa using hlisted) fun n e => hread ⟨n, congrArg some e⟩)
    · exact .inr (.inr (by_contra fun hno => hne (hm.qtrace_eq fun bar e => hno ⟨bar, congrArg some e⟩)))
    · refine by_contra fun hno => ?_
      obtain ⟨hquery, hread⟩ := not_or.1 hno
      exact hne (hm.res_eq (fun id e => hquery ⟨id, congrArg some e⟩) fun n e => hread ⟨n, congrArg some e⟩)
  | tick _ ha _ _ hm =>
    exact ⟨hm.evq_append, hm.ptrace_append, hm.qtrace_append, fun _ => .inl ha, fun _ => .inl ha,
      fun hne => absurd (hm.qtrace_eq nofun) hne, fun hne => absurd (hm.res_eq nofun nofun) hne⟩
  | dsp _ ha hm =>
    refine ⟨⟨[], by simp [hm.evq_eq]⟩, hm.ptrace_append, hm.qtrace_append, absurd hm.evq_eq, fun hne => ?_,
      fun hne => ?_, absurd hm.res_eq⟩
    · refine .inr (.inl ⟨ha, not_not.1 fun hp => ?_⟩)
      obtain ⟨-, hptrace, -⟩ := hm.discovery_only hp
      exact hne hptrace
    · refine .inl ⟨ha, fun hp => hne ?_⟩
      rw [hm.eq_of_idle hp, State.afterTurn_qtrace]

/-- Settles O20: a command moves the phase out of IDLE, and every other transition is the sequencer's. -/
theorem phaseMovesAsListed : Obligations.PhaseMovesAsListed := by
  intro s t h hne
  obtain ⟨-, hm⟩ := step_moves h
  cases hm with
  | nothing | refuse | done => exact absurd rfl hne
  | exec i _ _ hm =>
    obtain ⟨hlisted, hp⟩ := hm.phase_listed hne
    exact ⟨hlisted, fun hn => absurd hp hn, fun hs => by rw [show s.dsp.phase = .idle from hp] at hs; cases hs⟩
  | tick _ _ _ _ hm => exact absurd (hm.phase_eq nofun nofun) hne
  | dsp _ ha hm =>
    obtain ⟨hlisted, hfree⟩ := hm.phase_listed hne
    exact ⟨hlisted, fun _ => ha, hfree⟩

/-- Settles O21: a step runs on a block with no fault, and each move that raises one names its cause. -/
theorem faultsHaveTheirCauses : Obligations.FaultsHaveTheirCauses := by
  intro s t code info h ht
  obtain ⟨hf, hm⟩ := step_moves h
  refine ⟨hf, ?_⟩
  cases hm with
  | nothing | refuse | done => exact absurd (hf.symm.trans ht) nofun
  | exec i _ hpres hm => exact hm.fault_cause hf hpres ht
  | tick _ _ _ _ hm =>
    exact absurd (ht.symm.trans ((hm.fault_eq_of_scanner (by decide) nofun).trans hf)) nofun
  | dsp _ ha hm => exact hm.fault_cause hf ha ht

/-- Settles O23: with no command pending, the sequencer idle and nothing in flight, a tick is all that is left, and it reads a
primed scanner. -/
theorem successfulEndIsQuiet : Obligations.SuccessfulEndIsQuiet := by
  intro s t hinv hend h
  have hcases := hend.step_cases h
  obtain ⟨hf, hr, hp, hb, hc⟩ := hend
  rcases hcases with rfl | ⟨ha, he, hm⟩
  · exact ⟨rfl, fun _ => ⟨rfl, rfl, rfl⟩, hf, hr, hp, hb, (Env.afterTurn_cmds _).trans hc⟩
  · refine ⟨hinv.afterTurn.tick_frame he hm, fun hn => absurd ha hn, ?_⟩
    refine ⟨(hm.fault_eq_of_scanner (by decide) nofun).trans hf, hm.refused_eq.trans hr,
      (hm.phase_eq nofun nofun).trans hp, (congrArg Xfer.busy hm.xfer_eq).trans hb,
      hm.cmds_eq.trans ((Env.afterTurn_cmds _).trans hc)⟩

/-- Settles O38: only bring-up constructs the display, out of a discovery with nothing in flight. -/
theorem stateAfterBringUp : Obligations.StateAfterBringUp := by
  intro s t hinv h hu hc
  obtain ⟨-, hm⟩ := step_moves h
  cases hm with
  | nothing | refuse | done => exact absurd (hu.symm.trans hc) nofun
  | exec i _ _ hm => exact absurd (hu.symm.trans (hm.constructed_eq.symm.trans hc)) nofun
  | tick _ _ _ _ hm => exact absurd (hu.symm.trans (hm.constructed_eq.symm.trans hc)) nofun
  | dsp _ _ hm =>
    cases hm with
    | up code hp he hcode hlost hzero =>
      have hwin := (hinv.step h).window_main hc (by rw [State.bringUp_dsp]; nofun)
      rw [State.bringUp_eq] at hwin ⊢
      exact ⟨rfl, hwin, rfl, rfl, hinv.not_busy_of_boot hp, rfl, hinv.displayOverScanner (.inr hp), rfl, hcode.symm,
        hzero, hlost⟩
    | _ => exact absurd (hu.symm.trans hc) nofun

end Sys2Proof.Proofs
end

section
/-! PROOFS. A whole frame with a status bar (41_display.md R170(c), R171). -/

namespace Sys2Proof.Machine

/-- The state after a completion (41_display.md R161). -/
def State.afterDone (s : State) : State := { s with xfer := ⟨false, none⟩, qtrace := s.qtrace ++ [.done] }

/-- The state after step SF_W1 with a status image pending (41_display.md R163, R164). -/
def State.mainInFlight (s : State) (frame : Image) : State :=
  { s.afterMainSend frame with dsp := { (s.afterMainSend frame).dsp with phase := .sfW2 } }

/-- The state after the main frame's completion and step SF_W2. -/
def State.statusInFlight (s : State) (frame bar : Image) : State :=
  (s.mainInFlight frame).afterDone.afterStatusSend bar

/-- The state after the status image's completion and step SF_W3. -/
def State.frameDone (s : State) (frame bar : Image) : State := (s.statusInFlight frame bar).afterDone.afterFinish

section
variable (s : State) (frame bar : Image)

theorem State.frameDone_qtrace :
    (s.frameDone frame bar).qtrace = s.qtrace ++
      [.send ⟨frame.w, frame.h, frame.data, s.dsp.selectedPalette⟩, .done, .setWindow s.dsp.statusWindow,
        .send ⟨bar.w, bar.h, bar.data, none⟩, .done, .setWindow s.dsp.mainWindow] := by
  simp [State.frameDone, State.statusInFlight, State.mainInFlight, State.afterDone, State.afterFinish,
    State.afterStatusSend, State.afterMainSend, Dsp.mainWindow, Dsp.statusWindow]

theorem State.frameDone_screenBuf :
    (s.frameDone frame bar).dsp.screenBuf = (s.dsp.screenBuf.staged frame.data).staged bar.data := rfl

end

end Sys2Proof.Machine

namespace Sys2Proof.Proofs

open Sys2Proof.Machine

/-- Settles O54: each of the five steps is enabled in the state the one before it left. -/
theorem frameWithStatusBarSequence : Obligations.FrameWithStatusBarSequence := by
  intro s frame bar main status hinv hf hp hb hd hcur hl hbpp hw hh hmain hstatus
  obtain ⟨hc, -⟩ := hinv.constructed_of_submitting hp rfl
  have hdims : s.dsp.statusDims bar = true := statusDims_iff.2 ⟨hw, hh⟩
  obtain ⟨hflen, hfsize⟩ := hinv.frame_fits hp hcur
  obtain ⟨hblen, hbsize⟩ := hinv.status_fits hc hl hbpp hdims
  have hpending : (s.afterMainSend frame).dsp.lastStatus ≠ none := fun e => by
    simp [State.afterMainSend, hl] at e
  have hmainSend : dspStep s = .next (s.mainInFlight frame) := by
    rw [dspStep_sfW1 hf hb hp hcur hflen hfsize, State.statusPhase_pending hpending hd, State.mainInFlight]
  have hstatusSend : dspStep (s.mainInFlight frame).afterDone = .next (s.statusInFlight frame bar) :=
    dspStep_sfW2 (s := (s.mainInFlight frame).afterDone) hf rfl rfl hl hbpp hdims hblen hbsize
  have hfinish : dspStep (s.statusInFlight frame bar).afterDone = .next (s.frameDone frame bar) :=
    dspStep_sfW3 (s := (s.statusInFlight frame bar).afterDone) hf rfl rfl
  subst hmain hstatus
  refine ⟨_, (s.mainInFlight frame).afterDone, _, (s.statusInFlight frame bar).afterDone, _, hmainSend,
    xferStep_busy (s := s.mainInFlight frame) hf rfl, hstatusSend,
    xferStep_busy (s := s.statusInFlight frame bar) hf rfl, hfinish, s.frameDone_qtrace frame bar, rfl, rfl, rfl, rfl,
    rfl, hf, fun a ha => ?_, fun a ha ha' => ?_⟩ <;> rw [State.frameDone_screenBuf]
  · exact Memory.readByte_staged_of_lt _ ha
  · rw [Memory.readByte_staged_of_le _ ha, Memory.readByte_staged_of_lt _ ha']

end Sys2Proof.Proofs
end

section
/-! PROOFS. Queries between ticks (70_reset_and_hazards.md R217, 40_scanner.md R115). -/

namespace Sys2Proof.Machine

/-! ## Who writes the stored levels -/

theorem ExecMove.state_change {s t : State} {i : Instr} (h : ExecMove s i t) (hne : t.mux.state ≠ s.mux.state) :
    (s.mux.constructed = true ∧ s.mux.enabled = true ∧ i = .muxTick) ∨
      (s.mux.constructed = false ∧ t.mux.state = 0 ∧ (i = .muxInit ∨ i = .dispInit)) := by
  cases h with
  | init hu => exact .inr ⟨hu, rfl, .inl rfl⟩
  | tick hc he => exact .inl ⟨hc, he, rfl⟩
  | displayInit =>
    rcases s.ensureMux_cases with ⟨-, e⟩ | ⟨hu, e⟩
    · exact absurd (congrArg (·.mux.state) e) hne
    · exact .inr ⟨hu, congrArg (·.mux.state) e, .inr rfl⟩
  | _ => exact absurd rfl hne

/-! ## What a query's answer depends on -/

section
variable {s t : State} {id : ButtonId}

/-- An answer is a stored level by the bindings scanned. -/
theorem State.queryAnswer_congr (hc : t.mux.constructed = s.mux.constructed)
    (hl : t.mux.levelOf (t.mux.queryIds t.env.params.bindRule) id =
      s.mux.levelOf (s.mux.queryIds s.env.params.bindRule) id) : t.queryAnswer id = s.queryAnswer id := by
  rw [State.queryAnswer, State.queryAnswer, hc, hl]

theorem exec_muxQuery_eq {r : Word} (hf : s.fault = none) (h : s.queryAnswer id = r) :
    exec (.muxQuery id) s = .next { s with res := r } := by
  rw [exec_muxQuery hf, h]

/-- While no level is stored, no id reads as pressed. -/
theorem State.queryAnswer_of_state_zero (h : s.mux.state = 0) : s.queryAnswer id = 0 := by
  have hlevel : ∀ ids, s.mux.levelOf ids id = false := fun ids => by
    unfold Mux.levelOf
    split_ifs
    · rfl
    · split
      · rw [h]; exact BitVec.getLsbD_zero
      · rfl
  rw [State.queryAnswer, hlevel, if_neg (by simp)]

/-- With the bindings of the last tick standing, every rule gives the same answer. -/
theorem State.queryAnswer_of_tickId (h : s.mux.tickId = s.mux.id) (p q : Params) :
    State.queryAnswer { s with env := { s.env with params := p } } id =
      State.queryAnswer { s with env := { s.env with params := q } } id :=
  State.queryAnswer_congr rfl (by
    change s.mux.levelOf (s.mux.queryIds p.bindRule) id = s.mux.levelOf (s.mux.queryIds q.bindRule) id
    rw [s.mux.queryIds_of_tickId h, s.mux.queryIds_of_tickId h])

/-- A binding changes an answer only under R119's reading, and only for the id it binds and the id it replaces. -/
theorem State.queryAnswer_bind (slot : Fin 8) (b : ButtonId)
    (h : s.env.params.bindRule = .atTick ∨ (id ≠ b ∧ id ≠ s.mux.id[slot])) :
    State.queryAnswer { s with mux := { s.mux with id := s.mux.id.set slot b } } id = s.queryAnswer id := by
  refine State.queryAnswer_congr rfl ?_
  cases hr : s.env.params.bindRule with
  | atTick => rfl
  | atOnce =>
    obtain ⟨hb, hold⟩ := h.resolve_left (by simp [hr])
    simp only [Mux.queryIds_atOnce, Mux.levelOf, firstBound_set_of_ne _ _ _ _ hb hold]

end

end Sys2Proof.Machine

namespace Sys2Proof.Proofs

open Sys2Proof.Machine

/-- Settles O55: the stored levels are written by a tick or a construction, and an answer reads nothing but the levels,
the construction and the bindings its rule scans. -/
theorem queriesAnswerFromTheLastTick : Obligations.QueriesAnswerFromTheLastTick := by
  refine ⟨fun s t h hne => ?_, fun s id hf => ⟨fun hz => ?_, fun hc he => ?_, s.queryAnswer id, exec_muxQuery hf id,
    fun e he => ?_, fun slot => ?_, fun slot b hb => ?_⟩⟩
  · obtain ⟨-, hm⟩ := step_moves h
    cases hm with
    | nothing | refuse | done => exact absurd rfl hne
    | exec i _ hpres hm =>
      rcases hm.state_change hne with ⟨hc, he, rfl⟩ | ⟨hu, hz, rfl | rfl⟩
      · exact .inl ⟨hc, he, .inr hpres⟩
      · exact .inr ⟨hu, hz, .inl hpres⟩
      · exact .inr ⟨hu, hz, .inr hpres⟩
    | tick _ ha hc he => exact .inl ⟨hc, he, .inl ha⟩
    | dsp _ _ hm => exact absurd (congrArg Mux.state hm.mux_eq) hne
  · exact exec_muxQuery_eq hf (State.queryAnswer_of_state_zero hz)
  · exact ⟨_, exec_muxTick_on hf hc he, fun p q => ⟨_, exec_muxQuery_eq hf rfl,
      exec_muxQuery_eq hf (State.queryAnswer_of_tickId rfl q p)⟩⟩
  · exact exec_muxQuery_eq hf (State.queryAnswer_congr rfl (by simp only [he]))
  · cases hc : s.mux.constructed
    · exact ⟨s, (exec_muxSetinv hf slot).trans (if_neg (by simp [hc])), exec_muxQuery hf id⟩
    · exact ⟨_, (exec_muxSetinv hf slot).trans (if_pos hc), exec_muxQuery_eq hf (State.queryAnswer_congr rfl rfl)⟩
  · cases hc : s.mux.constructed
    · exact ⟨s, (exec_muxBind hf slot b).trans (if_neg (by simp [hc])), exec_muxQuery hf id⟩
    · exact ⟨_, (exec_muxBind hf slot b).trans (if_pos hc), exec_muxQuery_eq hf (State.queryAnswer_bind slot b hb)⟩

end Sys2Proof.Proofs
end
